-- ==== Sys2Proof/Word.lean ====
section
/-! DEFINITION. The word types of the block: bytes, 7-bit device addresses, the 48-bit command word and the
16-bit response word (spec/30_encoding.md R50, R56; spec/10_state.md R13). -/

namespace Sys2Proof

/-- One byte: a register of the chip, a register address, a command operand (R30, R53). -/
abbrev Byte := BitVec 8

/-- The 7-bit device address the block stores (R13). -/
abbrev DevAddr := BitVec 7

/-- A command word, `CMD_W` = 48 bits, bit 47 leftmost (R50). -/
abbrev CommandWord := BitVec 48

/-- A response word, `RESP_W` = 16 bits (R56). -/
abbrev ResponseWord := BitVec 16

end Sys2Proof
end

