-- ==== Sys2Proof/Syntax.lean ====
section
/-! DEFINITION. The commands, one constructor per row of spec/opcode_table.json (R2: there are exactly three). -/

namespace Sys2Proof

/-- A decoded command.  Operands the rules only compare, count or do exact arithmetic on (the frequency, the
channel index) are natural numbers; operands the rules slice or write to a register are bytes. -/
inductive Instr where
  /-- `Construct(<address>)`, format C (R51, R70). -/
  | construct (address : Byte)
  /-- `SetPrescaleFromFrequency(<frequency_hz>, <restart_after>)`, format P (R52, R80). -/
  | setPrescaleFromFrequency (frequencyHz : Nat) (restartAfter : Bool)
  /-- `SetChannel(<channel_index>, (<on_h>, <on_l>), (<off_h>, <off_l>))`, format T (R53, R110). -/
  | setChannel (channelIndex : Nat) (onH onL offH offL : Byte)
  deriving DecidableEq, Repr

end Sys2Proof
end

