-- ==== Sys2Proof/WellFormed.lean ====
section
/-! DEFINITION. Which commands a command word can carry: every numeric operand fits its field (R52, R53).  Whether an
operand is LEGAL (R83, R113, R114) is not asked here: illegal values decode and are rejected by the command itself. -/

namespace Sys2Proof

/-- `frequency_hz` is a 16-bit field (R52); `channel_index` is an 8-bit field (R53). -/
def Instr.wellFormed : Instr → Bool
  | .construct _ => true
  | .setPrescaleFromFrequency f _ => decide (f < 2 ^ 16)
  | .setChannel n _ _ _ _ => decide (n < 2 ^ 8)

/-- A well-formed command. -/
abbrev Instr.WellFormed (i : Instr) : Prop := i.wellFormed = true

end Sys2Proof
end

