-- ==== Sys2Proof/Decode.lean ====
section
/-! DEFINITION. The decoder of command words (R50 to R55, R64), total on all 48-bit words and rejecting by name; then
the encoder, from the same tables. -/

namespace Sys2Proof

/-- Why a word is `Illegal` (R55). -/
inductive IllegalReason where
  /-- `opcode` is none of 0x01, 0x02, 0x03. -/
  | unknownOpcode
  /-- `opcode = 0x01` with one of bits 39:8 set. -/
  | constructReservedBits
  /-- `opcode = 0x02` with one of bits 39:33 or 31:16 set. -/
  | prescaleReservedBits
  deriving DecidableEq, Repr

/-- What the decoder answers (R54). -/
inductive Decoded where
  | command (i : Instr)
  | illegal (why : IllegalReason)
  deriving DecidableEq, Repr

/-- A row of the opcode table: a word is of this format when `word & mask = pattern`. -/
structure TableRow where
  pattern : CommandWord
  mask : CommandWord
  deriving DecidableEq, Repr

/-- Format C (R51). -/
def rowConstruct : TableRow := { pattern := 0x010000000000#48, mask := 0xFFFFFFFFFF00#48 }

/-- Format P (R52). -/
def rowSetPrescale : TableRow := { pattern := 0x020000000000#48, mask := 0xFFFEFFFF0000#48 }

/-- Format T (R53). -/
def rowSetChannel : TableRow := { pattern := 0x030000000000#48, mask := 0xFF0000000000#48 }

/-- Whether a word is of the row's format (R54). -/
def matchesRow (r : TableRow) (w : CommandWord) : Bool := decide (w &&& r.mask = r.pattern)

/-- `opcode`, bits 47:40 (R50). -/
def opcodeOf (w : CommandWord) : Byte := w.extractLsb' 40 8

/-- The name of the rejection of a word no row matches (R55). -/
def illegalReason (w : CommandWord) : IllegalReason :=
  if opcodeOf w = 0x01#8 then .constructReservedBits
  else if opcodeOf w = 0x02#8 then .prescaleReservedBits
  else .unknownOpcode

/-- `decode` of R54: it depends on the word alone. -/
def decode (w : CommandWord) : Decoded :=
  if matchesRow rowConstruct w then
    .command (.construct (w.extractLsb' 0 8))
  else if matchesRow rowSetPrescale w then
    .command (.setPrescaleFromFrequency (w.extractLsb' 0 16).toNat (w.getLsbD 32))
  else if matchesRow rowSetChannel w then
    .command (.setChannel (w.extractLsb' 32 8).toNat (w.extractLsb' 24 8) (w.extractLsb' 16 8)
      (w.extractLsb' 8 8) (w.extractLsb' 0 8))
  else .illegal (illegalReason w)

/-- A field's value at its place in the command word: its bit 0 is the word's bit `lo`. -/
def fieldAt {k : Nat} (lo : Nat) (v : BitVec k) : CommandWord := v.setWidth 48 <<< lo

/-- The command word of a command: R51, R52 and R53, field by field from bit 47 down; reserved bits are 0. -/
def encode : Instr → CommandWord
  | .construct address => fieldAt 40 0x01#8 ||| fieldAt 0 address
  | .setPrescaleFromFrequency f r =>
    fieldAt 40 0x02#8 ||| fieldAt 32 (BitVec.ofBool r) ||| fieldAt 0 (BitVec.ofNat 16 f)
  | .setChannel n onH onL offH offL =>
    fieldAt 40 0x03#8 ||| fieldAt 32 (BitVec.ofNat 8 n) ||| fieldAt 24 onH ||| fieldAt 16 onL |||
    fieldAt 8 offH ||| fieldAt 0 offL

/-- The opcode table's row of a command. -/
def rowOf : Instr → TableRow
  | .construct _ => rowConstruct
  | .setPrescaleFromFrequency _ _ => rowSetPrescale
  | .setChannel _ _ _ _ _ => rowSetChannel

/-- The command word whose low `nbits` bits are those of `w` and whose other bits are 0.  A command word is one
48-bit word presented whole (R50), so the table's numbering of bits is the word's own. -/
def tableWord (nbits w : Nat) : CommandWord := BitVec.ofNat 48 (w % 2 ^ nbits)

/-- The command the decoder reads from a word numbered as the opcode table numbers it. -/
def decodeTableWord (nbits w : Nat) : Option Instr :=
  match decode (tableWord nbits w) with
  | .command i => some i
  | .illegal _ => none

end Sys2Proof
end

