-- ==== Sys2Proof/Config.lean ====
section
/-! DEFINITION. The implementation parameters of spec/00_scope.md R7.  The numbers DOC0 fixes are constants; the
named parameters spec/92_eei_decisions.md leaves OPEN are the fields of `Config`. -/

namespace Sys2Proof

/-- `OSC_HZ` (R7). -/
abbrev oscHz : Nat := 25000000

/-- `TICKS_PER_PERIOD` (R7). -/
abbrev ticksPerPeriod : Nat := 4096

/-- `PRESCALE_MIN` (R7). -/
abbrev prescaleMin : Nat := 3

/-- `PRESCALE_MAX` (R7). -/
abbrev prescaleMax : Nat := 255

/-- `N_CHANNELS` (R7). -/
abbrev nChannels : Nat := 16

/-- `TICK_MAX` (R7). -/
abbrev tickMax : Nat := 4095

/-- `ADDR_MAX` (R7). -/
abbrev addrMax : Nat := 0x7F

/-- `REG_MODE1` (R7, R35). -/
abbrev regMode1 : Byte := 0x00#8

/-- `REG_MODE2` (R7, R35): in the chip's map, accessed by no command. -/
abbrev regMode2 : Byte := 0x01#8

/-- `REG_PRESCALE` (R7, R35). -/
abbrev regPrescale : Byte := 0xFE#8

/-- `REG_LED_BASE` (R7, R35). -/
abbrev regLedBase : Nat := 0x06

/-- `LED_STRIDE` (R7, R35). -/
abbrev ledStride : Nat := 4

/-- `MODE1_RESTART`, bit 7 (R7, R59). -/
abbrev mode1Restart : Byte := 0x80#8

/-- `MODE1_AI`, bit 5 (R7, R59): carried by every MODE1 write, never interpreted. -/
abbrev mode1Ai : Byte := 0x20#8

/-- `MODE1_SLEEP`, bit 4 (R7, R59). -/
abbrev mode1Sleep : Byte := 0x10#8

/-- The transport's error value `e`, opaque (R33), on the eight lines the widest `BUSERR_W` has. -/
abbrev BusErr := BitVec 8

/-- The parameters the spec leaves open and a model takes as configuration (R7, decisions D5, D7 and D15). -/
structure Config where
  /-- `FREQ_MIN_HZ`, inclusive. -/
  freqMinHz : Nat
  /-- `FREQ_MAX_HZ`, inclusive. -/
  freqMaxHz : Nat
  /-- `SETTLE_US`, the least settle delay in microseconds. -/
  settleUs : Nat
  /-- `BUSERR_W`, the width of the transport's error value in bits. -/
  busErrW : Nat
  deriving DecidableEq, Repr

/-- The stated defaults of R7. -/
def Config.standard : Config := { freqMinHz := 24, freqMaxHz := 1526, settleUs := 500, busErrW := 8 }

/-- The constraints on the parameters: `1 <= FREQ_MIN_HZ <= FREQ_MAX_HZ <= 2^FREQ_W - 1` (R7), and `BUSERR_W <= 8`, as
the 16-bit response word needs (the table of open parameters in spec/92_eei_decisions.md). -/
abbrev Config.Legal (c : Config) : Prop :=
  1 ≤ c.freqMinHz ∧ c.freqMinHz ≤ c.freqMaxHz ∧ c.freqMaxHz ≤ 65535 ∧ c.busErrW ≤ 8

/-- `e` is a value of `BUSERR_W` bits (R33). -/
abbrev Config.ErrorFits (c : Config) (e : BusErr) : Prop := e.toNat < 2 ^ c.busErrW

end Sys2Proof
end

