-- ==== Sys2Proof/Machine/State.lean ====
section
/-! DEFINITION. The state of the block (spec/10_state.md): the Device record, the sequencer phase, the in-flight latches;
beside them the configuration, the model's picture of the environment, and the trace of spec/00_scope.md R6. -/

namespace Sys2Proof.Machine

/-- `dev_state` (R14). -/
inductive DevState where
  /-- No Device exists yet: after hardware reset. -/
  | unbound
  /-- Constructed, prescale unknown. -/
  | unconfigured
  /-- Prescale just set, oscillator stopped. -/
  | sleeping
  /-- Restart bit set, oscillator running. -/
  | active
  deriving DecidableEq, Repr

/-- The Device record (R11), less `phase`, which stands in `State` beside it (log entry 11).  "No value" of R11 is `none`. -/
structure Device where
  /-- `dev_state`. -/
  devState : DevState
  /-- `address`, 7 bits or no value (R13). -/
  address : Option DevAddr
  /-- `mode1_cache`, 8 bits or no value (R15). -/
  mode1Cache : Option Byte
  /-- `mode2_cache`, which holds no value at all times (R16). -/
  mode2Cache : Option Byte
  /-- `prescale_cache`, 8 bits or no value (R17). -/
  prescaleCache : Option Byte
  deriving DecidableEq, Repr

/-- The Device record after hardware reset (R22, R160). -/
def Device.unbound : Device :=
  { devState := .unbound, address := none, mode1Cache := none, mode2Cache := none, prescaleCache := none }

/-- The sequencer phase, the block's program counter: the name of the next transaction to issue (R12). -/
inductive Phase where
  | idle
  | spReadMode1
  | spWriteSleep
  | spWritePrescale
  | spWriteRestore
  | spSettle
  | spWriteRestart
  | scWriteOnL
  | scWriteOnH
  | scWriteOffL
  | scWriteOffH
  deriving DecidableEq, Repr

/-- The in-flight latches (R20), each holding a value or none. -/
structure Latches where
  restartAfter : Option Bool
  p : Option Byte
  m0 : Option Byte
  s : Option Byte
  rv : Option Byte
  rs : Option Byte
  base : Option Byte
  onL : Option Byte
  onH : Option Byte
  offL : Option Byte
  offH : Option Byte
  deriving DecidableEq, Repr

/-- No latch holds a value (R20: so whenever `phase = IDLE`). -/
def Latches.empty : Latches :=
  { restartAfter := none, p := none, m0 := none, s := none, rv := none, rs := none, base := none,
    onL := none, onH := none, offL := none, offH := none }

/-- What the block asks of the bus transport or of the settle timer (R31, R32, R147). -/
inductive Request where
  /-- `BusRead(dev, reg)`. -/
  | read (dev reg : Byte)
  /-- `BusWrite(dev, reg, v)`. -/
  | write (dev reg v : Byte)
  /-- `Delay(us)`. -/
  | delay (us : Nat)
  deriving DecidableEq, Repr

/-- The transport's reply to a read (R31). -/
inductive ReadReply where
  | ok (b : Byte)
  | err (e : BusErr)
  deriving DecidableEq, Repr

/-- The transport's reply to a write (R32). -/
inductive WriteReply where
  | ok
  | err (e : BusErr)
  deriving DecidableEq, Repr

/-- The six error kinds (R130); `busError` carries the transport's value. -/
inductive ErrorKind where
  | configError
  | invalidFrequency
  | invalidChannel
  | invalidTick
  | busError (e : BusErr)
  | illegalCommand
  deriving DecidableEq, Repr

/-- The response that ends a command, as a structured value (R56 allows it); the word is `responseWord`. -/
inductive Response where
  | ok
  | error (k : ErrorKind)
  deriving DecidableEq, Repr

/-- The events of the trace (R6). -/
inductive Event where
  /-- A command word is accepted. -/
  | accepted (w : CommandWord)
  /-- A request is issued to the transport or the timer. -/
  | request (r : Request)
  /-- The transport answers a read. -/
  | readReply (r : ReadReply)
  /-- The transport answers a write. -/
  | writeReply (r : WriteReply)
  /-- The timer answers "done", this many microseconds after the request. -/
  | delayDone (elapsedUs : Nat)
  /-- The command's response is returned. -/
  | response (r : Response)
  /-- The reset input was asserted.  The model's own mark (log entry 6). -/
  | hardwareReset
  deriving DecidableEq, Repr

/-- The environment's coming choices, in the order it makes them: the host's commands, the transport's and the
timer's answers, the reset input.  Plain data; nothing the block does puts anything into it (log entries 3 to 5). -/
structure Env where
  /-- The words the host offers on the command port, the one now offered first. -/
  commands : List CommandWord
  /-- The transport's replies to the coming reads (R33, R48). -/
  readReplies : List ReadReply
  /-- The transport's replies to the coming writes (R33). -/
  writeReplies : List WriteReply
  /-- For each coming delay request, how many microseconds MORE than requested pass before "done" (R148). -/
  timerSlack : List Nat
  /-- When the reset input is asserted: steps to run before the next assertion, then before the one after. -/
  resets : List Nat
  deriving DecidableEq, Repr

/-- An environment that offers nothing and answers nothing. -/
def Env.quiet : Env :=
  { commands := [], readReplies := [], writeReplies := [], timerSlack := [], resets := [] }

/-- The state of the machine. -/
structure State where
  /-- The open parameters the block was built with (R7); no step changes them. -/
  cfg : Config
  /-- The Device record (R11). -/
  dev : Device
  /-- The sequencer phase (R12). -/
  phase : Phase
  /-- The in-flight latches (R20). -/
  lat : Latches
  /-- Whether this phase's request has been issued and stands unanswered (R31, R32, R147). -/
  requested : Bool
  /-- The environment's coming choices. -/
  env : Env
  /-- The trace so far, oldest event first (R6). -/
  trace : List Event
  deriving DecidableEq, Repr

/-- The machine right after hardware reset (R22, R160, R161), with the default parameters and nothing offered. -/
def State.reset : State :=
  { cfg := Config.standard, dev := Device.unbound, phase := .idle, lat := Latches.empty, requested := false,
    env := Env.quiet, trace := [] }

/-- Why a step stops with a fault.  Neither is raised from a state that meets the invariant of Sys2Proof/Safety.lean. -/
inductive Fault where
  /-- Raised by the sequencer when a phase reads a Device field or a latch that holds no value (R11: no rule does).
  Safe: the model stops where the spec gives no meaning. -/
  | noValue
  /-- Raised by `SET_PRESCALE_FROM_FREQUENCY` when the limits let 0 Hz pass, which R7 forbids them to.
  Safe: the model stops where the division of R84 has no meaning. -/
  | zeroDivisor
  deriving DecidableEq, Repr

/-- Why a step gives an instruction no meaning. -/
inductive Refusal where
  /-- Raised by `exec` for an instruction not modelled yet: now by none.  Safe. -/
  | notModelled (mnemonic : String)
  deriving DecidableEq, Repr

/-- The outcome of a step of this machine. -/
abbrev Result := Host.Outcome State Fault Refusal

end Sys2Proof.Machine
end

