-- ==== Sys2Proof/Machine/Flags.lean ====
section
/-! DEFINITION. What stands in the place of flags.  The block has none (R19); the only status a host sees is the response
of each command (R56, R131) and the busy indication (R19). -/

namespace Sys2Proof.Machine

/-- The busy indication, `phase != IDLE`: while it is up the command port is not ready (R19, R25). -/
def busy (s : State) : Bool := decide (s.phase ≠ .idle)

/-- The number of an error kind (R131). -/
def errorStatus : ErrorKind → BitVec 4
  | .configError => 1#4
  | .invalidFrequency => 2#4
  | .invalidChannel => 3#4
  | .invalidTick => 4#4
  | .busError _ => 5#4
  | .illegalCommand => 6#4

/-- `status` of a response (R56, R131). -/
def responseStatus : Response → BitVec 4
  | .ok => 0#4
  | .error k => errorStatus k

/-- `info`: the transport's error value for `BusError`, 0 otherwise (R56, R131). -/
def responseInfo : Response → Byte
  | .error (.busError e) => e.setWidth 8
  | _ => 0#8

/-- The response word: `info` in 15:8, 7:4 zero, `status` in 3:0 (R56). -/
def responseWord (r : Response) : ResponseWord := 
  ((responseInfo r).setWidth 16 <<< 8) ||| (responseStatus r).setWidth 16

end Sys2Proof.Machine
end

