-- ==== Sys2Proof/Machine/Operands.lean ====
section
/-! DEFINITION. Every operand form and every computed operand: device address, tick pairs, channel registers, the MODE1
bytes and the prescale byte (R37, R49, R57 to R60, R83 to R91, R113 to R116). -/

namespace Sys2Proof.Machine

/-- The device-address byte of a transaction: the 7-bit address, bit 7 clear (R37). -/
def devByte (a : DevAddr) : Byte := a.setWidth 8

/-- What the transport's error value is on the block's `BUSERR_W` lines (R33, decision D5): a value of that width as it
is; of a wider one, which the transport does not have, the low `BUSERR_W` bits (log entry 2). -/
def errorLines (c : Config) (e : BusErr) : BusErr := (e.setWidth c.busErrW).setWidth 8

/-- `address <= ADDR_MAX` (R72). -/
def addressLegal (address : Byte) : Bool := decide (address.toNat ≤ addrMax)

/-- `address[6:0]` (R72). -/
def devAddrOf (address : Byte) : DevAddr := address.extractLsb' 0 7

/-- `FREQ_MIN_HZ <= frequency_hz <= FREQ_MAX_HZ` (R83). -/
def frequencyLegal (c : Config) (f : Nat) : Bool := decide (c.freqMinHz ≤ f ∧ f ≤ c.freqMaxHz)

/-- `q`, the quotient rounded to the nearest integer, in integers (R84). -/
def prescaleQuotient (f : Nat) : Nat := (oscHz + ticksPerPeriod / 2 * f) / (ticksPerPeriod * f)

/-- `clamp(v, lo, hi)` on mathematical integers (R8). -/
def clampInt (v lo hi : Int) : Int := if v < lo then lo else if hi < v then hi else v

/-- `P = clamp(q - 1, 3, 255)` as a byte (R84).  Only asked of a frequency other than 0. -/
def prescaleByte (f : Nat) : Byte :=
  BitVec.ofInt 8 (clampInt ((prescaleQuotient f : Int) - 1) (prescaleMin : Int) (prescaleMax : Int))

/-- `S`: RESTART cleared, SLEEP set, the other bits as read (R87). -/
def sleepByte (m0 : Byte) : Byte := (m0 &&& ~~~mode1Restart) ||| mode1Sleep

/-- `RV`: SLEEP cleared, the other bits as read (R89). -/
def restoreByte (m0 : Byte) : Byte := m0 &&& ~~~mode1Sleep

/-- `RS = RV | 0x80` (R91). -/
def restartByte (rv : Byte) : Byte := rv ||| mode1Restart

/-- `channel_index <= 15` (R113). -/
def channelLegal (n : Nat) : Bool := decide (n < nChannels)

/-- Bits 7:4 of a tick pair's high byte are clear, that is `h <= 0x0F` (R57, R114). -/
def tickHighLegal (h : Byte) : Bool := decide (h.toNat ≤ 0x0F)

/-- `base = 0x06 + 4 * channel_index` (R115). -/
def channelBase (n : Nat) : Byte := BitVec.ofNat 8 (regLedBase + ledStride * n)

/-- `base + k`: `k` is 0 for ON_L, 1 for ON_H, 2 for OFF_L, 3 for OFF_H (R49). -/
def channelReg (base : Byte) (k : Nat) : Byte := base + BitVec.ofNat 8 k

/-- The 12-bit tick value of a pair, `256 * h[3:0] + l` (R57). -/
def tickValue (h l : Byte) : Nat := 256 * (h.extractLsb' 0 4).toNat + l.toNat

/-- The high byte of a tick value, `tick[11:8]` zero-extended (R57). -/
def tickHigh (t : Nat) : Byte := BitVec.ofNat 8 (t / 256 % 16)

/-- The low byte of a tick value, `tick[7:0]` (R57). -/
def tickLow (t : Nat) : Byte := BitVec.ofNat 8 (t % 256)

/-- The four registers of a channel read as one little-endian word (R58). -/
def channelWord (onH onL offH offL : Byte) : BitVec 32 := offH ++ offL ++ onH ++ onL

end Sys2Proof.Machine
end

