-- ==== Sys2Proof/Machine/Ops.lean ====
section
/-! DEFINITION. The shared operations: the trace, ending a command (error return and normal return), issuing a request and
taking its reply, accepting a command, hardware reset. -/

namespace Sys2Proof.Machine

/-- Append an event to the trace (R6). -/
def emit (e : Event) (s : State) : State := { s with trace := s.trace ++ [e] }

/-- A command ends: the latches lose their values, `phase <- IDLE`, and the response is returned (R9, R138). -/
def endCommand (r : Response) (s : State) : State :=
  { s with phase := .idle, lat := Latches.empty, requested := false, trace := s.trace ++ [.response r] }

/-- `raise K(info)`, the error return (R9, R138): the one place an error kind is taken. -/
def raiseError (k : ErrorKind) (s : State) : State := endCommand (.error k) s

/-- `return Ok` (R9). -/
def returnOk (s : State) : State := endCommand .ok s

/-- A command's body runs only while `phase = IDLE`; otherwise it waits, unaccepted (R25). -/
def whenIdle (s : State) (body : Result) : Result := if s.phase = .idle then body else .next s

/-- The first phase of a command, with the operands latched (R25). -/
def enterPhase (p : Phase) (l : Latches) (s : State) : State := { s with phase := p, lat := l, requested := false }

/-- The phase advances: its event is complete and nothing stands open (R12). -/
def advance (p : Phase) (s : State) : State := { s with phase := p, requested := false }

/-- `rd(reg)`'s request: `BusRead(zext_8(st.address), reg)`, or none where `address` holds no value (R9, R37). -/
def readRequest (s : State) (reg : Byte) : Option Request :=
  s.dev.address.map fun a => .read (devByte a) reg

/-- `wr(reg, v)`'s request: `BusWrite(zext_8(st.address), reg, v)`, or none where one of the three holds no value (R9, R37). -/
def writeRequest (s : State) (reg v : Option Byte) : Option Request :=
  s.dev.address.bind fun a => reg.bind fun r => v.map fun b => .write (devByte a) r b

/-- Issue a request: it goes into the trace and stands open until answered (R31, R32, R147). -/
def issue (r : Request) (s : State) : State := { s with requested := true, trace := s.trace ++ [.request r] }

/-- The open read is answered `r`: the reply is taken from the environment and nothing stands open (R31). -/
def answeredRead (s : State) (r : ReadReply) (rest : List ReadReply) : State :=
  emit (.readReply r) { s with requested := false, env := { s.env with readReplies := rest } }

/-- The open write is answered `r` (R32). -/
def answeredWrite (s : State) (r : WriteReply) (rest : List WriteReply) : State :=
  emit (.writeReply r) { s with requested := false, env := { s.env with writeReplies := rest } }

/-- The timer answers "done", `extra` microseconds later than it had to (R147, R148). -/
def answeredDelay (s : State) (extra : Nat) (rest : List Nat) : State :=
  emit (.delayDone (s.cfg.settleUs + extra)) { s with requested := false, env := { s.env with timerSlack := rest } }

/-- Wait for the reply to the open read: none yet, nothing happens (R31); `ok(b)` goes on; `err(e)` raises `BusError(e)` (R33). -/
def awaitRead (s : State) (onOk : Byte → State → Result) : Result :=
  match s.env.readReplies with
  | [] => .next s
  | .ok b :: rest => onOk b (answeredRead s (.ok b) rest)
  | .err e :: rest =>
    .next (raiseError (.busError (errorLines s.cfg e)) (answeredRead s (.err (errorLines s.cfg e)) rest))

/-- Wait for the reply to the open write: none yet, nothing happens (R32); `ok` goes on; `err(e)` raises `BusError(e)` (R33). -/
def awaitWrite (s : State) (onOk : State → Result) : Result :=
  match s.env.writeReplies with
  | [] => .next s
  | .ok :: rest => onOk (answeredWrite s .ok rest)
  | .err e :: rest =>
    .next (raiseError (.busError (errorLines s.cfg e)) (answeredWrite s (.err (errorLines s.cfg e)) rest))

/-- Wait for the settle timer's "done", which comes no sooner than requested and cannot fail (R147, R148, R150). -/
def awaitDelay (s : State) (onDone : State → Result) : Result :=
  match s.env.timerSlack with
  | [] => .next s
  | extra :: rest => onDone (answeredDelay s extra rest)

/-- Take the word offered on the command port (R25). -/
def acceptCommand (w : CommandWord) (rest : List CommandWord) (s : State) : State :=
  emit (.accepted w) { s with env := { s.env with commands := rest } }

/-- An `Illegal` word is not executed: `IllegalCommand`, no transaction, no state change (R55, R137). -/
def illegalCommand (s : State) : State := raiseError .illegalCommand s

/-- Whether the reset input is asserted now. -/
def resetAsserted (s : State) : Bool :=
  match s.env.resets with
  | 0 :: _ => true
  | _ => false

/-- The count to the next assertion of the reset input, one step later. -/
def countDown : List Nat → List Nat
  | (n + 1) :: rest => n :: rest
  | l => l

/-- One step nearer to the next assertion of the reset input; nothing else changes. -/
def countReset (s : State) : State := { s with env := { s.env with resets := countDown s.env.resets } }

/-- Hardware reset, in any phase (R160, R165): the block's state at once as R22 gives it, no transaction, no response. -/
def hardwareReset (s : State) : State :=
  { s with
    dev := Device.unbound
    phase := .idle
    lat := Latches.empty
    requested := false
    env := { s.env with resets := s.env.resets.tail }
    trace := s.trace ++ [.hardwareReset] }

/-- The state in which the word `w` is the next thing the block takes: idle, `w` on the command port, no reset near. -/
def offerCommand (w : CommandWord) (s : State) : State :=
  { s with
    phase := .idle
    lat := Latches.empty
    requested := false
    env := { s.env with commands := w :: s.env.commands, resets := [] } }

end Sys2Proof.Machine
end

