-- ==== Sys2Proof/Machine/Construct.lean ====
section
/-! DEFINITION. `CONSTRUCT` (spec/40_construct.md R70 to R77). -/

namespace Sys2Proof.Machine

/-- The Device record after a successful `CONSTRUCT` (R22, R72). -/
def constructedDevice (address : Byte) : Device :=
  { devState := .unconfigured, address := some (devAddrOf address), mode1Cache := none, mode2Cache := none,
    prescaleCache := none }

/-- `CONSTRUCT(address)` (R72): it completes in the accepting step, with no bus transaction. -/
def execConstruct (address : Byte) (s : State) : Result :=
  whenIdle s <|
    if addressLegal address then .next (returnOk { s with dev := constructedDevice address })
    else .next (raiseError .configError s)

end Sys2Proof.Machine
end

