-- ==== Sys2Proof/Machine/SetChannel.lean ====
section
/-! DEFINITION. `SET_CHANNEL` (spec/42_set_channel.md R110 to R125): the accepting step, and what each of its four write
phases does when its write is answered `ok`. -/

namespace Sys2Proof.Machine

/-- The latches the accepting step writes (R20, R25). -/
def channelLatches (base onH onL offH offL : Byte) : Latches :=
  { Latches.empty with base := some base, onL := some onL, onH := some onH, offL := some offL, offH := some offH }

/-- The accepting step of `SET_CHANNEL(channel_index, on_h, on_l, off_h, off_l)` (R122, R112 to R115, R25). -/
def execSetChannel (channelIndex : Nat) (onH onL offH offL : Byte) (s : State) : Result :=
  whenIdle s <|
    if s.dev.devState = .unbound then .next (raiseError .configError s)
    else if channelLegal channelIndex = false then .next (raiseError .invalidChannel s)
    else if tickHighLegal onH = false then .next (raiseError .invalidTick s)
    else if tickHighLegal offH = false then .next (raiseError .invalidTick s)
    else .next (enterPhase .scWriteOnL (channelLatches (channelBase channelIndex) onH onL offH offL) s)

/-- The register of the `k`-th write, where `base` holds a value (R115). -/
def channelRegister (s : State) (k : Nat) : Option Byte := s.lat.base.map fun b => channelReg b k

/-- `SC_WRITE_ON_L` answered `ok` (R117). -/
def onLWritten (s : State) : Result := .next (advance .scWriteOnH s)

/-- `SC_WRITE_ON_H` answered `ok` (R117). -/
def onHWritten (s : State) : Result := .next (advance .scWriteOffL s)

/-- `SC_WRITE_OFF_L` answered `ok` (R117). -/
def offLWritten (s : State) : Result := .next (advance .scWriteOffH s)

/-- `SC_WRITE_OFF_H` answered `ok`: the command is done (R117). -/
def offHWritten (s : State) : Result := .next (returnOk s)

end Sys2Proof.Machine
end

