-- ==== Sys2Proof/Machine/SetPrescale.lean ====
section
/-! DEFINITION. `SET_PRESCALE_FROM_FREQUENCY` (spec/41_set_prescale.md R80 to R102): the accepting step, the request of
each of its phases, and what each phase does when its event completes. -/

namespace Sys2Proof.Machine

/-- The latches the accepting step writes (R20, R25). -/
def prescaleLatches (restartAfter : Bool) (p : Byte) : Latches :=
  { Latches.empty with restartAfter := some restartAfter, p := some p }

/-- The accepting step of `SET_PRESCALE_FROM_FREQUENCY(frequency_hz, restart_after)` (R95, R82 to R84, R25). -/
def execSetPrescaleFromFrequency (frequencyHz : Nat) (restartAfter : Bool) (s : State) : Result :=
  whenIdle s <|
    if s.dev.devState = .unbound then .next (raiseError .configError s)
    else if frequencyLegal s.cfg frequencyHz = false then .next (raiseError .invalidFrequency s)
    else if frequencyHz = 0 then .fault .zeroDivisor
    else .next (enterPhase .spReadMode1 (prescaleLatches restartAfter (prescaleByte frequencyHz)) s)

/-- The latches `SP_READ_MODE1` writes when the read answers `m0` (R20, R95). -/
def latchMode1 (m0 : Byte) (l : Latches) : Latches :=
  { l with m0 := some m0, s := some (sleepByte m0), rv := some (restoreByte m0),
           rs := some (restartByte (restoreByte m0)) }

/-- `SP_READ_MODE1` answered `ok(m0)` (R86). -/
def mode1Read (m0 : Byte) (s : State) : Result :=
  .next (advance .spWriteSleep { s with lat := latchMode1 m0 s.lat })

/-- The commit (R93): the three fields in one step, then `Ok`. -/
def commitPrescale (mode1 prescale : Option Byte) (d : DevState) (s : State) : Result :=
  match mode1, prescale with
  | some m, some p =>
    .next (returnOk { s with dev := { s.dev with mode1Cache := some m, prescaleCache := some p, devState := d } })
  | _, _ => .fault .noValue

/-- `SP_WRITE_SLEEP` answered `ok` (R87). -/
def sleepWritten (s : State) : Result := .next (advance .spWritePrescale s)

/-- `SP_WRITE_PRESCALE` answered `ok` (R88, R92, R93): on to the restore write, or commit and leave the chip asleep. -/
def prescaleWritten (s : State) : Result :=
  match s.lat.restartAfter with
  | some true => .next (advance .spWriteRestore s)
  | some false => commitPrescale s.lat.s s.lat.p .sleeping s
  | none => .fault .noValue

/-- `SP_WRITE_RESTORE` answered `ok` (R89). -/
def restoreWritten (s : State) : Result := .next (advance .spSettle s)

/-- `SP_SETTLE`: the timer is done (R90). -/
def settled (s : State) : Result := .next (advance .spWriteRestart s)

/-- `SP_WRITE_RESTART` answered `ok` (R91, R93). -/
def restartWritten (s : State) : Result := commitPrescale s.lat.rs s.lat.p .active s

end Sys2Proof.Machine
end

