-- ==== Sys2Proof/Machine/Dispatch.lean ====
section
/-! DEFINITION. One arm per command. -/

namespace Sys2Proof.Machine

def exec (i : Instr) (s : State) : Host.Outcome State Fault Refusal :=
  match i with
  | .construct a => Sys2Proof.Machine.execConstruct a s
  | .setPrescaleFromFrequency f r => Sys2Proof.Machine.execSetPrescaleFromFrequency f r s
  | .setChannel n onH onL offH offL => Sys2Proof.Machine.execSetChannel n onH onL offH offL s

end Sys2Proof.Machine
end

