-- ==== Sys2Proof/Machine/Sequencer.lean ====
section
/-! DEFINITION. The sequencer: what the block does in each phase (R12), and in `IDLE` (R25). -/

namespace Sys2Proof.Machine

/-- The request of a phase (R12, third column), or none in `IDLE` and where a field it reads holds no value. -/
def phaseRequest (s : State) : Option Request :=
  match s.phase with
  | .idle => none
  | .spReadMode1 => readRequest s regMode1
  | .spWriteSleep => writeRequest s (some regMode1) s.lat.s
  | .spWritePrescale => writeRequest s (some regPrescale) s.lat.p
  | .spWriteRestore => writeRequest s (some regMode1) s.lat.rv
  | .spSettle => some (.delay s.cfg.settleUs)
  | .spWriteRestart => writeRequest s (some regMode1) s.lat.rs
  | .scWriteOnL => writeRequest s (channelRegister s 0) s.lat.onL
  | .scWriteOnH => writeRequest s (channelRegister s 1) s.lat.onH
  | .scWriteOffL => writeRequest s (channelRegister s 2) s.lat.offL
  | .scWriteOffH => writeRequest s (channelRegister s 3) s.lat.offH

/-- Issue the phase's request. -/
def issuePhase (s : State) : Result :=
  match phaseRequest s with
  | some r => .next (issue r s)
  | none => .fault .noValue

/-- Wait for the answer to the phase's request and act on it (R12, last two columns). -/
def completePhase (s : State) : Result :=
  match s.phase with
  | .idle => .next s
  | .spReadMode1 => awaitRead s mode1Read
  | .spWriteSleep => awaitWrite s sleepWritten
  | .spWritePrescale => awaitWrite s prescaleWritten
  | .spWriteRestore => awaitWrite s restoreWritten
  | .spSettle => awaitDelay s settled
  | .spWriteRestart => awaitWrite s restartWritten
  | .scWriteOnL => awaitWrite s onLWritten
  | .scWriteOnH => awaitWrite s onHWritten
  | .scWriteOffL => awaitWrite s offLWritten
  | .scWriteOffH => awaitWrite s offHWritten

/-- In `IDLE`: wait for a command; when one is offered, accept, decode and run its accepting step (R25, R54, R140). -/
def idleStep (s : State) : Result :=
  match s.env.commands with
  | [] => .next s
  | w :: rest =>
    match decode w with
    | .command i => exec i (acceptCommand w rest s)
    | .illegal _ => .next (illegalCommand (acceptCommand w rest s))

/-- One step while the reset input is not asserted. -/
def runStep (s : State) : Result :=
  if s.phase = .idle then idleStep s
  else if s.requested then completePhase s
  else issuePhase s

end Sys2Proof.Machine
end

