-- ==== Sys2Proof/Machine/Step.lean ====
section
/-! DEFINITION. The step, and where the next command is taken from. -/

namespace Sys2Proof.Machine

/-- One step: reset wins at once in any phase (R160, R165); otherwise the sequencer moves. -/
def step (s : State) : Host.Outcome State Fault Refusal :=
  if resetAsserted s then .next (hardwareReset s) else runStep (countReset s)

/-- `s` with the word offered on the command port so that the very next step takes it.  Commands are presented by the
host and fetched from no memory (R46; log entry 3). -/
def State.withFetchWord (s : State) (nbits w : Nat) : State := offerCommand (tableWord nbits w) s

end Sys2Proof.Machine
end

