-- ==== Sys2Proof/Safety.lean ====
section
/-! DEFINITION. What a safe run is: the invariant of the block's state (R7, R18, R20), the footprint of its requests (R36),
the trace of a whole command (R96, R117) and what the trace must look like at every moment (R6, R25, R42, R56). -/

namespace Sys2Proof.Machine

/-- `mode1_cache` in `Sleeping`: SLEEP set, RESTART clear (R18). -/
def asleepByte (m : Byte) : Bool := m.getLsbD 4 && !m.getLsbD 7

/-- `mode1_cache` in `Active`: SLEEP clear, RESTART set (R18). -/
def awakeByte (m : Byte) : Bool := !m.getLsbD 4 && m.getLsbD 7

/-- A legal prescale byte: `PRESCALE_MIN <= p <= PRESCALE_MAX` (R17, R60). -/
def prescaleLegal (p : Byte) : Bool := decide (prescaleMin ≤ p.toNat ∧ p.toNat ≤ prescaleMax)

/-- The Device record's invariants (R18).  They hold in every phase: the record is written only as a command ends. -/
abbrev Device.Ok (d : Device) : Prop :=
  (d.devState = .unbound → d.address = none ∧ d.mode1Cache = none ∧ d.prescaleCache = none) ∧
  (d.devState = .unconfigured → d.address.isSome = true ∧ d.mode1Cache = none ∧ d.prescaleCache = none) ∧
  (d.devState = .sleeping →
    d.address.isSome = true ∧ d.mode1Cache.any asleepByte = true ∧ d.prescaleCache.isSome = true) ∧
  (d.devState = .active →
    d.address.isSome = true ∧ d.mode1Cache.any awakeByte = true ∧ d.prescaleCache.isSome = true) ∧
  d.prescaleCache.all prescaleLegal = true ∧
  d.mode2Cache = none

/-- Which latches hold values in which phase, and which values (R20). -/
def LatchesOk (ph : Phase) (l : Latches) : Prop :=
  match ph with
  | .idle => l = Latches.empty
  | .spReadMode1 => ∃ r p, prescaleLegal p = true ∧ l = prescaleLatches r p
  | .spWriteSleep | .spWritePrescale =>
    ∃ r p m0, prescaleLegal p = true ∧ l = latchMode1 m0 (prescaleLatches r p)
  | .spWriteRestore | .spSettle | .spWriteRestart =>
    ∃ p m0, prescaleLegal p = true ∧ l = latchMode1 m0 (prescaleLatches true p)
  | .scWriteOnL | .scWriteOnH | .scWriteOffL | .scWriteOffH =>
    ∃ n onH onL offH offL, channelLegal n = true ∧ tickHighLegal onH = true ∧ tickHighLegal offH = true ∧
      l = channelLatches (channelBase n) onH onL offH offL

/-- `n` steps, stopping at the first that gives no next state. -/
def runSteps : Nat → State → Result
  | 0, s => .next s
  | n + 1, s =>
    match step s with
    | .next t => runSteps n t
    | .fault r => .fault r
    | .refused r => .refused r

/-- The invariant of the block's state. -/
structure Inv (s : State) : Prop where
  /-- The parameters meet R7's constraint. -/
  cfgLegal : s.cfg.Legal
  /-- The Device record is one R18 allows. -/
  deviceOk : s.dev.Ok
  /-- A command in flight has a Device (R82, R112). -/
  boundInFlight : s.phase ≠ .idle → s.dev.devState ≠ .unbound
  /-- The latches are those of the phase (R20). -/
  latchesOk : LatchesOk s.phase s.lat
  /-- Nothing stands open in `IDLE` (R42). -/
  idleQuiet : s.phase = .idle → s.requested = false

/-- A byte the block may write to MODE1: one of the forms `S`, `RV`, `RS` (R36). -/
def Mode1Form (v : Byte) : Prop :=
  ∃ m0, v = sleepByte m0 ∨ v = restoreByte m0 ∨ v = restartByte (restoreByte m0)

/-- The footprint of R36, for the device-address byte `a`; and the one delay request (R147). -/
def InFootprint (a : Byte) (settleUs : Nat) : Request → Prop
  | .read dev reg => dev = a ∧ reg = regMode1
  | .write dev reg v =>
    dev = a ∧
      ((reg = regMode1 ∧ Mode1Form v) ∨
       (reg = regPrescale ∧ prescaleLegal v = true) ∨
       (∃ n k, n ≤ 15 ∧ k ≤ 3 ∧ reg.toNat = 0x06 + 4 * n + k ∧ (k = 1 ∨ k = 3 → v.toNat ≤ 0x0F)))
  | .delay us => us = settleUs

/-- A successful read of MODE1, as events. -/
def readEvents (a m0 : Byte) : List Event := [.request (.read a regMode1), .readReply (.ok m0)]

/-- A successful write, as events. -/
def writeEvents (a reg v : Byte) : List Event := [.request (.write a reg v), .writeReply .ok]

/-- The settle delay, as events. -/
def delayEvents (us elapsed : Nat) : List Event := [.request (.delay us), .delayDone elapsed]

/-- The events of a successful command after its acceptance, to its response: the tables of R96, R117 and R73.
`a` is the device-address byte, `m0` the byte read from MODE1, `elapsed` how long the settle delay took. -/
def commandTrace (a : Byte) (us elapsed : Nat) (m0 : Byte) : Instr → List Event
  | .construct _ => [.response .ok]
  | .setPrescaleFromFrequency f true =>
    readEvents a m0 ++ writeEvents a regMode1 (sleepByte m0) ++ writeEvents a regPrescale (prescaleByte f) ++
    writeEvents a regMode1 (restoreByte m0) ++ delayEvents us elapsed ++
    writeEvents a regMode1 (restartByte (restoreByte m0)) ++ [.response .ok]
  | .setPrescaleFromFrequency f false =>
    readEvents a m0 ++ writeEvents a regMode1 (sleepByte m0) ++ writeEvents a regPrescale (prescaleByte f) ++
    [.response .ok]
  | .setChannel n onH onL offH offL =>
    writeEvents a (channelReg (channelBase n) 0) onL ++ writeEvents a (channelReg (channelBase n) 1) onH ++
    writeEvents a (channelReg (channelBase n) 2) offL ++ writeEvents a (channelReg (channelBase n) 3) offH ++
    [.response .ok]

/-- How many events of its command are over when a phase begins (R12). -/
def eventsBefore : Phase → Nat
  | .idle => 0
  | .spReadMode1 => 0
  | .spWriteSleep => 2
  | .spWritePrescale => 4
  | .spWriteRestore => 6
  | .spSettle => 8
  | .spWriteRestart => 10
  | .scWriteOnL => 0
  | .scWriteOnH => 2
  | .scWriteOffL => 4
  | .scWriteOffH => 6

/-- Whether a command passes through a phase (R12). -/
def usesPhase : Instr → Phase → Bool
  | .setPrescaleFromFrequency _ _, .spReadMode1 => true
  | .setPrescaleFromFrequency _ _, .spWriteSleep => true
  | .setPrescaleFromFrequency _ _, .spWritePrescale => true
  | .setPrescaleFromFrequency _ r, .spWriteRestore => r
  | .setPrescaleFromFrequency _ r, .spSettle => r
  | .setPrescaleFromFrequency _ r, .spWriteRestart => r
  | .setChannel _ _ _ _ _, .scWriteOnL => true
  | .setChannel _ _ _ _ _, .scWriteOnH => true
  | .setChannel _ _ _ _ _, .scWriteOffL => true
  | .setChannel _ _ _ _ _, .scWriteOffH => true
  | _, _ => false

/-- The operands pass the command's own validation (R72, R83, R113, R114). -/
def operandsLegal (c : Config) : Instr → Bool
  | .construct address => addressLegal address
  | .setPrescaleFromFrequency f _ => frequencyLegal c f
  | .setChannel n onH _ offH _ => channelLegal n && tickHighLegal onH && tickHighLegal offH

/-- The latches of a command in flight (R20). -/
def flightLatches (m0 : Byte) (ph : Phase) : Instr → Latches
  | .construct _ => Latches.empty
  | .setPrescaleFromFrequency f r =>
    if ph = .spReadMode1 then prescaleLatches r (prescaleByte f)
    else latchMode1 m0 (prescaleLatches r (prescaleByte f))
  | .setChannel n onH onL offH offL => channelLatches (channelBase n) onH onL offH offL

/-- While a command is in flight, the trace ends with its acceptance and then exactly the first events of its own
complete trace: two for each phase behind it, and one more while a request stands open (R12, R42, R43, R96). -/
def FlightTrace (s : State) : Prop :=
  s.phase ≠ .idle →
    ∃ before w i a m0 elapsed,
      decode w = .command i ∧ usesPhase i s.phase = true ∧ operandsLegal s.cfg i = true ∧
      s.dev.address = some a ∧ s.cfg.settleUs ≤ elapsed ∧ s.lat = flightLatches m0 s.phase i ∧
      s.trace = before ++ [.accepted w] ++
        (commandTrace (devByte a) s.cfg.settleUs elapsed m0 i).take
          (eventsBefore s.phase + if s.requested then 1 else 0)

/-- One event, read as part of the dialogue: `some true` while a command is in flight, `some false` between commands,
`none` where the order of R6, R25 and R42 is broken. -/
def dialogue : Option Bool → Event → Option Bool
  | some false, .accepted _ => some true
  | some true, .request _ => some true
  | some true, .readReply _ => some true
  | some true, .writeReply _ => some true
  | some true, .delayDone _ => some true
  | some true, .response _ => some false
  | some _, .hardwareReset => some false
  | _, _ => none

/-- The dialogue of a whole trace from an idle block. -/
def dialogueOf (t : List Event) : Option Bool := t.foldl dialogue (some false)

/-- The trace is a dialogue that stands where the phase says: before the next word is accepted, every accepted word has
had its one response or was cut off by a hardware reset, which returns none (R165; log entries 6 and 16), and every
request and reply lies inside a command (R25, R56, R144). -/
abbrev DialogueOk (s : State) : Prop := dialogueOf s.trace = some (busy s)

/-- An event that answers a request (R6). -/
def isReply : Event → Bool
  | .readReply _ => true
  | .writeReply _ => true
  | .delayDone _ => true
  | _ => false

/-- The byte the last write request of `evs` to register `reg` of device `dev` carries, if there is one (R32). -/
def byteWritten (dev reg : Byte) (evs : List Event) : Option Byte :=
  evs.foldl
    (fun b e =>
      match e with
      | .request (.write d r v) => if d = dev ∧ r = reg then some v else b
      | _ => b)
    none

/-- An event that issues a request (R6). -/
def isRequest : Event → Bool
  | .request _ => true
  | _ => false

/-- Where the phase may go in one step, besides staying (R12, R25). -/
def nextPhases : Phase → List Phase
  | .idle => [.spReadMode1, .scWriteOnL]
  | .spReadMode1 => [.spWriteSleep, .idle]
  | .spWriteSleep => [.spWritePrescale, .idle]
  | .spWritePrescale => [.spWriteRestore, .idle]
  | .spWriteRestore => [.spSettle, .idle]
  | .spSettle => [.spWriteRestart]
  | .spWriteRestart => [.idle]
  | .scWriteOnL => [.scWriteOnH, .idle]
  | .scWriteOnH => [.scWriteOffL, .idle]
  | .scWriteOffL => [.scWriteOffH, .idle]
  | .scWriteOffH => [.idle]

/-- The state just after the open write is answered `r`, before the phase acts on it: spelled out field by field. -/
def afterWriteReply (s : State) (r : WriteReply) (rest : List WriteReply) : State :=
  { countReset s with
    requested := false
    env := { (countReset s).env with writeReplies := rest }
    trace := s.trace ++ [.writeReply r] }

/-- The state just after the open read is answered `r`, before the phase acts on it: spelled out field by field. -/
def afterReadReply (s : State) (r : ReadReply) (rest : List ReadReply) : State :=
  { countReset s with
    requested := false
    env := { (countReset s).env with readReplies := rest }
    trace := s.trace ++ [.readReply r] }

/-- The phase of `s` performs `BusWrite(dev, reg, v)`: it issues it; while unanswered it only waits; on `ok` it does
`onOk`; on `err(e)`, `e` a value of `BUSERR_W` bits, it raises `BusError(e)` (R9, R12, R32, R33). -/
def PerformsWrite (s : State) (dev reg v : Byte) (onOk : State → State) : Prop :=
  (s.requested = false → step s = .next (issue (.write dev reg v) (countReset s))) ∧
  (s.requested = true → s.env.writeReplies = [] → step s = .next (countReset s)) ∧
  (s.requested = true → ∀ rest, s.env.writeReplies = .ok :: rest →
    step s = .next (onOk (afterWriteReply s .ok rest))) ∧
  (s.requested = true → ∀ e rest, s.cfg.ErrorFits e → s.env.writeReplies = .err e :: rest →
    step s = .next (raiseError (.busError e) (afterWriteReply s (.err e) rest)))

/-- `s` with other values in the two caches. -/
def withCaches (mode1 prescale : Option Byte) (s : State) : State :=
  { s with dev := { s.dev with mode1Cache := mode1, prescaleCache := prescale } }

/-- The environment has an answer ready for every request a command can still make (the fairness of R150). -/
def AnswersReady (s : State) : Prop :=
  1 ≤ s.env.readReplies.length ∧ 4 ≤ s.env.writeReplies.length ∧ 1 ≤ s.env.timerSlack.length ∧ s.env.resets = []

end Sys2Proof.Machine
end

