-- ==== Sys2Proof/Certificates/Slice0/Obligations.lean ====
section
/-! DEFINITION. The statements for the provers: what reset leaves, the encodings, each command's accepting step and each of
its phases, whole commands from acceptance to response, and the promises the machine keeps in every step. -/

open Sys2Proof Sys2Proof.Machine

/-! ## Reset -/

/-- R22, R160, R161 (decision D9): after hardware reset `dev_state` is `Unbound`, `phase` is `IDLE`, and no other field
and no latch holds a value. That nothing stands open, that the trace is empty and that the parameters are R7's defaults
belongs to the model's own fields (log entries 1 and 3 to 7). -/
def Obligations.ResetStateUnboundIdle : Prop :=
  State.reset.dev.devState = .unbound ∧ State.reset.dev.address = none ∧ State.reset.dev.mode1Cache = none ∧
  State.reset.dev.mode2Cache = none ∧ State.reset.dev.prescaleCache = none ∧ State.reset.phase = .idle ∧
  State.reset.lat = Latches.empty ∧ State.reset.requested = false ∧ State.reset.trace = [] ∧
  State.reset.cfg = { freqMinHz := 24, freqMaxHz := 1526, settleUs := 500, busErrW := 8 }

/-- R160, R165 (decisions D9, D17): asserted in any phase, reset puts the block at once into the state of R22, with no
request and no response; the parameters and the environment stay. The trace mark is the model's own (log entry 6). -/
def Obligations.HardwareResetInAnyPhase : Prop :=
  ∀ (s : State) (rest : List Nat), s.env.resets = 0 :: rest →
    ∃ t, step s = .next t ∧
      t.dev.devState = .unbound ∧ t.dev.address = none ∧ t.dev.mode1Cache = none ∧ t.dev.mode2Cache = none ∧
      t.dev.prescaleCache = none ∧ t.phase = .idle ∧ t.lat = Latches.empty ∧ t.requested = false ∧
      t.cfg = s.cfg ∧ t.env = { s.env with resets := rest } ∧ t.trace = s.trace ++ [.hardwareReset]

/-- The state after reset meets the invariant, and its trace is a well-formed dialogue (R18, R22). -/
def Obligations.ResetMeetsInvariants : Prop :=
  Inv State.reset ∧ FlightTrace State.reset ∧ DialogueOk State.reset

/-! ## Encodings -/

/-- R51 to R54 (decision D1): the decoder reads every well-formed command back from its word, every operand at every
value. -/
def Obligations.DecodeOfEncode : Prop :=
  ∀ i : Instr, i.WellFormed → decode (encode i) = .command i

/-- R51 to R54 (decision D1): a word that decodes to a command is that command's one word, and the command is
well-formed. -/
def Obligations.EncodeOfDecode : Prop :=
  ∀ (w : CommandWord) (i : Instr), decode w = .command i → i.WellFormed ∧ encode i = w

/-- R55 (decision D3): the illegal words are exactly those with an unknown opcode or a reserved bit set. -/
def Obligations.IllegalWordsExactly : Prop :=
  ∀ w : CommandWord,
    (∃ why, decode w = .illegal why) ↔
      ((w.extractLsb' 40 8 ≠ 0x01#8 ∧ w.extractLsb' 40 8 ≠ 0x02#8 ∧ w.extractLsb' 40 8 ≠ 0x03#8) ∨
       (w.extractLsb' 40 8 = 0x01#8 ∧ w.extractLsb' 8 32 ≠ 0#32) ∨
       (w.extractLsb' 40 8 = 0x02#8 ∧ (w.extractLsb' 33 7 ≠ 0#7 ∨ w.extractLsb' 16 16 ≠ 0#16)))

/-- R54, R55 (decisions D1, D3): words of the spec, written out from R51 to R53 and the test vectors, decode to the
commands they stand for or to `Illegal`; the names that tell three kinds of `Illegal` apart are the model's choice (log
entry 20). -/
def Obligations.SpecWordsDecode : Prop :=
  decode 0x010000000040#48 = .command (.construct 0x40#8) ∧
  decode 0x020100000032#48 = .command (.setPrescaleFromFrequency 50 true) ∧
  decode 0x020000000032#48 = .command (.setPrescaleFromFrequency 50 false) ∧
  decode 0x030000000197#48 = .command (.setChannel 0 0x00#8 0x00#8 0x01#8 0x97#8) ∧
  decode 0x030702340ABC#48 = .command (.setChannel 7 0x02#8 0x34#8 0x0A#8 0xBC#8) ∧
  decode 0x000000000000#48 = .illegal .unknownOpcode ∧
  decode 0x010000000140#48 = .illegal .constructReservedBits ∧
  decode 0x020200000032#48 = .illegal .prescaleReservedBits

/-- R56, R131 (decisions D2, D4): the fields of the response word; `info` is the transport's value for `BusError` and 0
otherwise, bits 7:4 are 0, and the status numbers 0 to 6 are those of the table. -/
def Obligations.ResponseWordFields : Prop :=
  (∀ r : Response,
    (responseWord r).extractLsb' 4 4 = 0#4 ∧
    ((∀ e, r ≠ .error (.busError e)) → (responseWord r).extractLsb' 8 8 = 0#8)) ∧
  (responseWord .ok).extractLsb' 0 4 = 0#4 ∧
  (responseWord (.error .configError)).extractLsb' 0 4 = 1#4 ∧
  (responseWord (.error .invalidFrequency)).extractLsb' 0 4 = 2#4 ∧
  (responseWord (.error .invalidChannel)).extractLsb' 0 4 = 3#4 ∧
  (responseWord (.error .invalidTick)).extractLsb' 0 4 = 4#4 ∧
  (responseWord (.error .illegalCommand)).extractLsb' 0 4 = 6#4 ∧
  (∀ e : BusErr, (responseWord (.error (.busError e))).extractLsb' 0 4 = 5#4 ∧
    (responseWord (.error (.busError e))).extractLsb' 8 8 = e)

/-! ## The step in IDLE -/

/-- R25, R54, R140 (decisions D1, D3): in `IDLE`, an offered word that decodes to `i` is taken from the port, recorded
as accepted, and `i`'s accepting step runs (the count to the next reset is the model's own, log entry 5). And, the
model's choice of log entry 3: `withFetchWord` makes a word the next thing taken. -/
def Obligations.StepRunsDecodedCommand : Prop :=
  (∀ (s : State) (w : CommandWord) (rest : List CommandWord) (i : Instr),
    resetAsserted s = false → s.phase = .idle → s.env.commands = w :: rest → decode w = .command i →
    step s = exec i { countReset s with
      env := { (countReset s).env with commands := rest }, trace := s.trace ++ [.accepted w] }) ∧
  (∀ (s : State) (nbits w : Nat) (i : Instr), decodeTableWord nbits w = some i →
    step (s.withFetchWord nbits w) = exec i { s with
      phase := .idle, lat := Latches.empty, requested := false, env := { s.env with resets := [] },
      trace := s.trace ++ [.accepted (tableWord nbits w)] })

/-- R55, R137 (decision D3): an illegal word, in every `dev_state`, is answered `IllegalCommand`; no transaction, and
nothing of the block changes. -/
def Obligations.IllegalWordAnswered : Prop :=
  ∀ (s : State) (w : CommandWord) (rest : List CommandWord) (why : IllegalReason),
    resetAsserted s = false → s.phase = .idle → s.env.commands = w :: rest → decode w = .illegal why →
    step s = .next { countReset s with
      phase := .idle, lat := Latches.empty, requested := false,
      env := { (countReset s).env with commands := rest },
      trace := s.trace ++ [.accepted w, .response (.error .illegalCommand)] }

/-- R12, R31, R32, R34 (decision D18): the block waits, changing nothing, while it is idle and nothing is offered and
while its open request has no answer. -/
def Obligations.WaitingChangesNothing : Prop :=
  ∀ s : State, resetAsserted s = false →
    ((s.phase = .idle ∧ s.env.commands = []) ∨
     (s.requested = true ∧ s.phase = .spReadMode1 ∧ s.env.readReplies = []) ∨
     (s.requested = true ∧ s.phase = .spSettle ∧ s.env.timerSlack = []) ∨
     (s.requested = true ∧ s.phase ≠ .idle ∧ s.phase ≠ .spReadMode1 ∧ s.phase ≠ .spSettle ∧
       s.env.writeReplies = [])) →
    step s = .next (countReset s)

/-- R25, R176 (decision D16): while a command is in flight the port takes nothing: the offered words stay as they are
and nothing is recorded as accepted; a command given to `exec` then waits (log entry 21). -/
def Obligations.BusyPortTakesNothing : Prop :=
  (∀ s t : State, s.phase ≠ .idle → step s = .next t →
    t.env.commands = s.env.commands ∧
    ∃ evs, t.trace = s.trace ++ evs ∧ ∀ w, Event.accepted w ∉ evs) ∧
  (∀ (s : State) (i : Instr), s.phase ≠ .idle → exec i s = .next s)

/-! ## CONSTRUCT -/

/-- R72, R74, R75: a legal address (0x00 to 0x7F) binds a fresh Device, also on a bound block (R76, decision D11); any
other fails with `ConfigError` and writes nothing. Either way the command is over in the accepting step, with no
request and no delay. While another command is in flight it waits (R25, decision D16; log entry 21). -/
def Obligations.ConstructEffect : Prop :=
  ∀ (s : State) (address : Byte),
    (s.phase ≠ .idle → exec (.construct address) s = .next s) ∧
    (s.phase = .idle → address.toNat ≤ 0x7F →
      exec (.construct address) s = .next { s with
        dev := { devState := .unconfigured, address := some (address.setWidth 7), mode1Cache := none,
                 mode2Cache := none, prescaleCache := none },
        lat := Latches.empty, requested := false, trace := s.trace ++ [.response .ok] }) ∧
    (s.phase = .idle → 0x7F < address.toNat →
      exec (.construct address) s = .next { s with
        lat := Latches.empty, requested := false, trace := s.trace ++ [.response (.error .configError)] })

/-! ## SET_PRESCALE_FROM_FREQUENCY -/

/-- R82, R112, R132 (decision D10), R140: on an unbound block both `SET_*` commands fail with `ConfigError` whatever
their operands are, with no request and no change of the record. -/
def Obligations.UnboundSetIsConfigError : Prop :=
  ∀ (s : State), s.phase = .idle → s.dev.devState = .unbound →
    (∀ f r, exec (.setPrescaleFromFrequency f r) s = .next { s with
      lat := Latches.empty, requested := false, trace := s.trace ++ [.response (.error .configError)] }) ∧
    (∀ n onH onL offH offL, exec (.setChannel n onH onL offH offL) s = .next { s with
      lat := Latches.empty, requested := false, trace := s.trace ++ [.response (.error .configError)] })

/-- R133 (the limits are parameters, decision D7): on a bound block a frequency outside the limits fails with
`InvalidFrequency`, with no request and no change of the record. -/
def Obligations.FrequencyOutsideLimits : Prop :=
  ∀ (s : State) (f : Nat) (r : Bool), s.phase = .idle → s.dev.devState ≠ .unbound →
    f < s.cfg.freqMinHz ∨ s.cfg.freqMaxHz < f →
    exec (.setPrescaleFromFrequency f r) s = .next { s with
      lat := Latches.empty, requested := false, trace := s.trace ++ [.response (.error .invalidFrequency)] }

/-- R25, R83, R84, R95 (decisions D7, D8): on a bound block a frequency within the limits is accepted: `restart_after`
and `P` are latched and the read of MODE1 is next; nothing is issued yet and nothing else changes. -/
def Obligations.FrequencyAccepted : Prop :=
  ∀ (s : State) (f : Nat) (r : Bool), s.cfg.Legal → s.phase = .idle → s.dev.devState ≠ .unbound →
    s.cfg.freqMinHz ≤ f → f ≤ s.cfg.freqMaxHz →
    exec (.setPrescaleFromFrequency f r) s = .next { s with
      phase := .spReadMode1, requested := false,
      lat := { Latches.empty with restartAfter := some r, p := some (prescaleByte f) } }

/-- R84, R85 (decision D8): `q` is the integer nearest to 25 000 000 / (4096 f), with no tie for any 16-bit `f`, and
`P` is `q - 1` clamped to 3 and 255 on mathematical integers. -/
def Obligations.PrescaleRoundsToNearest : Prop :=
  ∀ f : Nat, 1 ≤ f → f ≤ 65535 →
    ∃ q : Int, 2 * |25000000 - 4096 * (f : Int) * q| < 4096 * (f : Int) ∧
      ((prescaleByte f).toNat : Int) = max 3 (min 255 (q - 1))

/-- R85, R17: every prescale byte is legal, the byte does not grow with the frequency, and within 24 to 1526 Hz the
clamp changes nothing and the byte is at most 253. -/
def Obligations.PrescaleRangeAndOrder : Prop :=
  (∀ f, 1 ≤ f → prescaleLegal (prescaleByte f) = true) ∧
  (∀ f g, 1 ≤ f → f ≤ g → (prescaleByte g).toNat ≤ (prescaleByte f).toNat) ∧
  (∀ f, 24 ≤ f → f ≤ 1526 →
    (prescaleByte f).toNat + 1 = (25000000 + 2048 * f) / (4096 * f) ∧ (prescaleByte f).toNat ≤ 253)

/-- R85, R102: the frequencies the spec works out. -/
def Obligations.PrescaleWorkedValues : Prop :=
  prescaleByte 24 = 0xFD#8 ∧ prescaleByte 25 = 0xF3#8 ∧ prescaleByte 40 = 0x98#8 ∧ prescaleByte 50 = 0x79#8 ∧
  prescaleByte 60 = 0x65#8 ∧ prescaleByte 100 = 0x3C#8 ∧ prescaleByte 200 = 0x1E#8 ∧ prescaleByte 333 = 0x11#8 ∧
  prescaleByte 488 = 0x0C#8 ∧ prescaleByte 1000 = 0x05#8 ∧ prescaleByte 1220 = 0x04#8 ∧ prescaleByte 1356 = 0x04#8 ∧
  prescaleByte 1357 = 0x03#8 ∧ prescaleByte 1526 = 0x03#8 ∧
  prescaleByte 23 = 0xFF#8 ∧ prescaleByte 1743 = 0x03#8 ∧ prescaleByte 1744 = 0x03#8 ∧ prescaleByte 12208 = 0x03#8

/-- R59, R87, R89, R91 (decision D13): bit by bit, what the three MODE1 writes carry of the byte read. -/
def Obligations.Mode1WritesByBit : Prop :=
  ∀ m0 : Byte,
    (sleepByte m0).getLsbD 7 = false ∧ (sleepByte m0).getLsbD 4 = true ∧
    (restoreByte m0).getLsbD 7 = m0.getLsbD 7 ∧ (restoreByte m0).getLsbD 4 = false ∧
    (restartByte (restoreByte m0)).getLsbD 7 = true ∧ (restartByte (restoreByte m0)).getLsbD 4 = false ∧
    (∀ k, k < 8 → k ≠ 7 → k ≠ 4 →
      (sleepByte m0).getLsbD k = m0.getLsbD k ∧ (restoreByte m0).getLsbD k = m0.getLsbD k ∧
      (restartByte (restoreByte m0)).getLsbD k = m0.getLsbD k)

/-- R86, R20 (decision D12): `SP_READ_MODE1` reads register 0x00 of the device, never the cache; on `ok(m0)` it latches
`M0` and the three bytes made of it; on `err(e)` it raises `BusError(e)`. Every byte and every answer is covered. -/
def Obligations.ReadMode1Phase : Prop :=
  ∀ s : State, Inv s → s.phase = .spReadMode1 → resetAsserted s = false →
    ∃ a, s.dev.address = some a ∧
      (s.requested = false → step s = .next (issue (.read (a.setWidth 8) 0x00#8) (countReset s))) ∧
      (s.requested = true → ∀ m0 rest, s.env.readReplies = .ok m0 :: rest →
        step s = .next { afterReadReply s (.ok m0) rest with
          phase := .spWriteSleep,
          lat := { s.lat with m0 := some m0, s := some ((m0 &&& 0x7F#8) ||| 0x10#8), rv := some (m0 &&& 0xEF#8),
                              rs := some ((m0 &&& 0xEF#8) ||| 0x80#8) } }) ∧
      (s.requested = true → ∀ e rest, s.cfg.ErrorFits e → s.env.readReplies = .err e :: rest →
        step s = .next (raiseError (.busError e) (afterReadReply s (.err e) rest)))

/-- R87: `SP_WRITE_SLEEP` writes `S = (M0 & 0x7F) | 0x10` to MODE1, whatever `M0` is. While unanswered it waits (R32;
log entry 9), and `ok` leads to the prescale write (R12, R88; decision D18). -/
def Obligations.SleepWritePhase : Prop :=
  ∀ s : State, Inv s → s.phase = .spWriteSleep → resetAsserted s = false →
    ∃ a m0, s.dev.address = some a ∧ s.lat.m0 = some m0 ∧
      PerformsWrite s (a.setWidth 8) 0x00#8 ((m0 &&& 0x7F#8) ||| 0x10#8)
        (fun t => { t with phase := .spWritePrescale })

/-- R88, R92, R93 (decision D14): `SP_WRITE_PRESCALE` writes `P` to register 0xFE. With a restart asked for, `ok` leads
to the restore write and writes no field of the record; without, the record is committed in one step (`S`, `P`,
`Sleeping`) and the command answers `Ok`. -/
def Obligations.PrescaleWritePhase : Prop :=
  ∀ s : State, Inv s → s.phase = .spWritePrescale → resetAsserted s = false →
    ∃ a m0 p r, s.dev.address = some a ∧ s.lat.m0 = some m0 ∧ s.lat.p = some p ∧ s.lat.restartAfter = some r ∧
      PerformsWrite s (a.setWidth 8) 0xFE#8 p
        (fun t => if r then { t with phase := .spWriteRestore }
          else { t with
            dev := { t.dev with mode1Cache := some ((m0 &&& 0x7F#8) ||| 0x10#8), prescaleCache := some p,
                                devState := .sleeping },
            phase := .idle, lat := Latches.empty, trace := t.trace ++ [.response .ok] })

/-- R89 (decision D13): `SP_WRITE_RESTORE` writes `RV = M0 & 0xEF` to MODE1; `ok` leads to the settle delay. -/
def Obligations.RestoreWritePhase : Prop :=
  ∀ s : State, Inv s → s.phase = .spWriteRestore → resetAsserted s = false →
    ∃ a m0, s.dev.address = some a ∧ s.lat.m0 = some m0 ∧
      PerformsWrite s (a.setWidth 8) 0x00#8 (m0 &&& 0xEF#8) (fun t => { t with phase := .spSettle })

/-- R90, R147, R148, R150 (decision D15): `SP_SETTLE` asks the timer for `SETTLE_US` and issues nothing on the bus; it
cannot fail, and "done" comes no sooner than asked; then the restart write is next. -/
def Obligations.SettlePhase : Prop :=
  ∀ s : State, s.phase = .spSettle → resetAsserted s = false →
    (s.requested = false → step s = .next (issue (.delay s.cfg.settleUs) (countReset s))) ∧
    (s.requested = true → ∀ extra rest, s.env.timerSlack = extra :: rest →
      ∃ elapsed, s.cfg.settleUs ≤ elapsed ∧
        step s = .next { countReset s with
          phase := .spWriteRestart, requested := false,
          env := { (countReset s).env with timerSlack := rest }, trace := s.trace ++ [.delayDone elapsed] })

/-- R91, R93 (decisions D13, D14): `SP_WRITE_RESTART` writes `RS = (M0 & 0x6F) | 0x80` to MODE1, whatever `M0` is; `ok`
commits the record in one step (`RS`, `P`, `Active`) and the command answers `Ok`; on `err(e)` the cache is not
updated. -/
def Obligations.RestartWritePhase : Prop :=
  ∀ s : State, Inv s → s.phase = .spWriteRestart → resetAsserted s = false →
    ∃ a m0 p, s.dev.address = some a ∧ s.lat.m0 = some m0 ∧ s.lat.p = some p ∧
      PerformsWrite s (a.setWidth 8) 0x00#8 ((m0 &&& 0x6F#8) ||| 0x80#8)
        (fun t => { t with
          dev := { t.dev with mode1Cache := some ((m0 &&& 0x6F#8) ||| 0x80#8), prescaleCache := some p,
                              devState := .active },
          phase := .idle, lat := Latches.empty, trace := t.trace ++ [.response .ok] })

/-- R95, R96, R93, R97, R98 (decisions D7, D8, D12 to D15, D19): on a bound block, with any byte read from MODE1 and
every write answered `ok`, the command is accepted and its whole trace is the table's, in order, with a delay of at
least `SETTLE_US` before the restart write; at the end the record holds the last MODE1 byte written, the prescale byte,
and `Active` or `Sleeping`. The step counts are the model's (log entry 8). -/
def Obligations.SetPrescaleSuccess : Prop :=
  ∀ (s : State) (f : Nat) (r : Bool) (a : DevAddr) (m0 : Byte) (reads : List ReadReply) (writes : List WriteReply),
    s.cfg.Legal → s.phase = .idle → s.dev.devState ≠ .unbound → s.dev.address = some a →
    s.cfg.freqMinHz ≤ f → f ≤ s.cfg.freqMaxHz → s.env.resets = [] →
    s.env.readReplies = .ok m0 :: reads →
    ∃ t0, exec (.setPrescaleFromFrequency f r) s = .next t0 ∧
      (∀ extra slacks, r = true → s.env.timerSlack = extra :: slacks →
        s.env.writeReplies = .ok :: .ok :: .ok :: .ok :: writes →
        runSteps 12 t0 = .next { s with
          dev := { s.dev with mode1Cache := some ((m0 &&& 0x6F#8) ||| 0x80#8), prescaleCache := some (prescaleByte f),
                              devState := .active },
          lat := Latches.empty, requested := false,
          env := { s.env with readReplies := reads, writeReplies := writes, timerSlack := slacks },
          trace := s.trace ++ [
            .request (.read (a.setWidth 8) 0x00#8), .readReply (.ok m0),
            .request (.write (a.setWidth 8) 0x00#8 ((m0 &&& 0x7F#8) ||| 0x10#8)), .writeReply .ok,
            .request (.write (a.setWidth 8) 0xFE#8 (prescaleByte f)), .writeReply .ok,
            .request (.write (a.setWidth 8) 0x00#8 (m0 &&& 0xEF#8)), .writeReply .ok,
            .request (.delay s.cfg.settleUs), .delayDone (s.cfg.settleUs + extra),
            .request (.write (a.setWidth 8) 0x00#8 ((m0 &&& 0x6F#8) ||| 0x80#8)), .writeReply .ok,
            .response .ok] }) ∧
      (r = false → s.env.writeReplies = .ok :: .ok :: writes →
        runSteps 6 t0 = .next { s with
          dev := { s.dev with mode1Cache := some ((m0 &&& 0x7F#8) ||| 0x10#8), prescaleCache := some (prescaleByte f),
                              devState := .sleeping },
          lat := Latches.empty, requested := false,
          env := { s.env with readReplies := reads, writeReplies := writes },
          trace := s.trace ++ [
            .request (.read (a.setWidth 8) 0x00#8), .readReply (.ok m0),
            .request (.write (a.setWidth 8) 0x00#8 ((m0 &&& 0x7F#8) ||| 0x10#8)), .writeReply .ok,
            .request (.write (a.setWidth 8) 0xFE#8 (prescaleByte f)), .writeReply .ok,
            .response .ok] })

/-- R94, R96 (decisions D7, D8, D12, D13): whichever transaction of an accepted command fails, the command ends there:
the trace is what it would have been up to that request, then the failed reply and `BusError` with the transport's
value; the record is as before. The step counts are the model's (log entry 8). -/
def Obligations.SetPrescaleBusFailure : Prop :=
  ∀ (s : State) (f : Nat) (r : Bool) (a : DevAddr) (e : BusErr),
    s.cfg.Legal → s.phase = .idle → s.dev.devState ≠ .unbound → s.dev.address = some a →
    s.cfg.freqMinHz ≤ f → f ≤ s.cfg.freqMaxHz → s.env.resets = [] → s.cfg.ErrorFits e →
    ∃ t0, exec (.setPrescaleFromFrequency f r) s = .next t0 ∧
      (∀ reads, s.env.readReplies = .err e :: reads →
        ∃ t, runSteps 2 t0 = .next t ∧ t.dev = s.dev ∧ t.phase = .idle ∧ t.lat = Latches.empty ∧
          t.requested = false ∧
          t.trace = s.trace ++ [.request (.read (a.setWidth 8) 0x00#8), .readReply (.err e),
            .response (.error (.busError e))]) ∧
      (∀ m0 reads extra slacks j writes, s.env.readReplies = .ok m0 :: reads →
        (j = 3 → s.env.timerSlack = extra :: slacks) → j < (if r then 4 else 2) →
        s.env.writeReplies = List.replicate j .ok ++ .err e :: writes →
        ∃ t, runSteps (if j = 3 then 12 else 2 * j + 4) t0 = .next t ∧ t.dev = s.dev ∧ t.phase = .idle ∧
          t.lat = Latches.empty ∧ t.requested = false ∧
          t.trace = s.trace ++
            (commandTrace (a.setWidth 8) s.cfg.settleUs (s.cfg.settleUs + extra) m0
              (.setPrescaleFromFrequency f r)).take (if j = 3 then 11 else 2 * j + 3) ++
            [.writeReply (.err e), .response (.error (.busError e))])

/-! ## SET_CHANNEL -/

/-- R113, R134, R135: on a bound block an index above 15 fails with `InvalidChannel` whatever the ticks are; otherwise
a high byte above 0x0F in either pair fails with `InvalidTick`. No request, no change of the record. -/
def Obligations.ChannelOrTickOutOfRange : Prop :=
  ∀ (s : State) (n : Nat) (onH onL offH offL : Byte), s.phase = .idle → s.dev.devState ≠ .unbound →
    (15 < n → exec (.setChannel n onH onL offH offL) s = .next { s with
      lat := Latches.empty, requested := false, trace := s.trace ++ [.response (.error .invalidChannel)] }) ∧
    (n ≤ 15 → 0x0F < onH.toNat ∨ 0x0F < offH.toNat →
      exec (.setChannel n onH onL offH offL) s = .next { s with
        lat := Latches.empty, requested := false, trace := s.trace ++ [.response (.error .invalidTick)] })

/-- R25, R112, R115, R122 (decisions D10, D16): on a bound block, in every `dev_state`, legal operands are accepted:
base and the four bytes are latched and the ON_L write is next; nothing is issued yet and nothing else changes. -/
def Obligations.ChannelAccepted : Prop :=
  ∀ (s : State) (n : Nat) (onH onL offH offL : Byte), s.phase = .idle → s.dev.devState ≠ .unbound →
    n ≤ 15 → onH.toNat ≤ 0x0F → offH.toNat ≤ 0x0F →
    exec (.setChannel n onH onL offH offL) s = .next { s with
      phase := .scWriteOnL, requested := false,
      lat := { Latches.empty with base := some (BitVec.ofNat 8 (0x06 + 4 * n)), onL := some onL, onH := some onH,
                                  offL := some offL, offH := some offH } }

/-- R12, R116, R117 (decision D18 names the phases): each of the four phases writes its operand byte, unchanged, to its
register of the channel; `ok` leads to the next phase, after the fourth to `Ok`. -/
def Obligations.ChannelWritePhases : Prop :=
  ∀ s : State, Inv s → resetAsserted s = false →
    (s.phase = .scWriteOnL → ∃ a base v, s.dev.address = some a ∧ s.lat.base = some base ∧ s.lat.onL = some v ∧
      PerformsWrite s (a.setWidth 8) base v (fun t => { t with phase := .scWriteOnH })) ∧
    (s.phase = .scWriteOnH → ∃ a base v, s.dev.address = some a ∧ s.lat.base = some base ∧ s.lat.onH = some v ∧
      PerformsWrite s (a.setWidth 8) (base + 1#8) v (fun t => { t with phase := .scWriteOffL })) ∧
    (s.phase = .scWriteOffL → ∃ a base v, s.dev.address = some a ∧ s.lat.base = some base ∧ s.lat.offL = some v ∧
      PerformsWrite s (a.setWidth 8) (base + 2#8) v (fun t => { t with phase := .scWriteOffH })) ∧
    (s.phase = .scWriteOffH → ∃ a base v, s.dev.address = some a ∧ s.lat.base = some base ∧ s.lat.offH = some v ∧
      PerformsWrite s (a.setWidth 8) (base + 3#8) v
        (fun t => { t with phase := .idle, lat := Latches.empty, trace := t.trace ++ [.response .ok] }))

/-- R116, R117: on a bound block legal operands give the four writes ON_L, ON_H, OFF_L, OFF_H in this order, each after
the `ok` of the one before, and then `Ok`; at the first `err(e)` the command stops with `BusError(e)` and no later
write is issued. The record is as before in both cases (R119, decision D14). The step counts are the model's (log entry
8). -/
def Obligations.SetChannelWrites : Prop :=
  ∀ (s : State) (n : Nat) (onH onL offH offL : Byte) (a : DevAddr),
    s.phase = .idle → s.dev.devState ≠ .unbound → s.dev.address = some a →
    n ≤ 15 → onH.toNat ≤ 0x0F → offH.toNat ≤ 0x0F → s.env.resets = [] →
    ∃ t0, exec (.setChannel n onH onL offH offL) s = .next t0 ∧
      (∀ writes, s.env.writeReplies = .ok :: .ok :: .ok :: .ok :: writes →
        runSteps 8 t0 = .next { s with
          lat := Latches.empty, requested := false, env := { s.env with writeReplies := writes },
          trace := s.trace ++ [
            .request (.write (a.setWidth 8) (BitVec.ofNat 8 (0x06 + 4 * n)) onL), .writeReply .ok,
            .request (.write (a.setWidth 8) (BitVec.ofNat 8 (0x07 + 4 * n)) onH), .writeReply .ok,
            .request (.write (a.setWidth 8) (BitVec.ofNat 8 (0x08 + 4 * n)) offL), .writeReply .ok,
            .request (.write (a.setWidth 8) (BitVec.ofNat 8 (0x09 + 4 * n)) offH), .writeReply .ok,
            .response .ok] }) ∧
      (∀ j e writes, j < 4 → s.cfg.ErrorFits e → s.env.writeReplies = List.replicate j .ok ++ .err e :: writes →
        ∃ t, runSteps (2 * j + 2) t0 = .next t ∧ t.dev = s.dev ∧ t.phase = .idle ∧ t.lat = Latches.empty ∧
          t.requested = false ∧
          t.trace = s.trace ++
            [.request (.write (a.setWidth 8) (BitVec.ofNat 8 (0x06 + 4 * n)) onL), .writeReply .ok,
             .request (.write (a.setWidth 8) (BitVec.ofNat 8 (0x07 + 4 * n)) onH), .writeReply .ok,
             .request (.write (a.setWidth 8) (BitVec.ofNat 8 (0x08 + 4 * n)) offL), .writeReply .ok,
             .request (.write (a.setWidth 8) (BitVec.ofNat 8 (0x09 + 4 * n)) offH)].take (2 * j + 1) ++
            [.writeReply (.err e), .response (.error (.busError e))])

/-- R115, R49: `base` runs from 0x06 to 0x42, no addition overflows, and the 64 channel registers are distinct. -/
def Obligations.ChannelRegisters : Prop :=
  (∀ n k, n ≤ 15 → k ≤ 3 →
    (channelBase n).toNat = 0x06 + 4 * n ∧ (channelReg (channelBase n) k).toNat = 0x06 + 4 * n + k ∧
    (channelReg (channelBase n) k).toNat ≤ 0x45) ∧
  (∀ n k n' k', n ≤ 15 → k ≤ 3 → n' ≤ 15 → k' ≤ 3 →
    channelReg (channelBase n) k = channelReg (channelBase n') k' → n = n' ∧ k = k')

/-- R57: a pair is legal exactly when `256 h + l <= 4095`; it then stands for that value, and the value gives the pair
back; and every 12-bit value is a legal pair's. With R57's two examples. -/
def Obligations.TickPairs : Prop :=
  (∀ h l : Byte, tickHighLegal h = true ↔ 256 * h.toNat + l.toNat ≤ 4095) ∧
  (∀ h l : Byte, tickHighLegal h = true →
    tickValue h l = 256 * h.toNat + l.toNat ∧ tickHigh (tickValue h l) = h ∧ tickLow (tickValue h l) = l) ∧
  (∀ t, t ≤ 4095 → tickHighLegal (tickHigh t) = true ∧ tickValue (tickHigh t) (tickLow t) = t) ∧
  tickValue 0x01#8 0x97#8 = 407 ∧ tickHighLegal 0x10#8 = false

/-- R58, R38, R117 (the step count is the model's, log entry 8): after a `SET_CHANNEL` whose writes are all answered
`ok`, the bytes its requests wrote to the channel's four registers, base + 0 to base + 3, read as one little-endian
word are `off_tick * 65536 + on_tick`. -/
def Obligations.ChannelWordValue : Prop :=
  ∀ (s : State) (n : Nat) (onH onL offH offL : Byte) (a : DevAddr) (writes : List WriteReply),
    s.phase = .idle → s.dev.devState ≠ .unbound → s.dev.address = some a →
    n ≤ 15 → onH.toNat ≤ 0x0F → offH.toNat ≤ 0x0F → s.env.resets = [] →
    s.env.writeReplies = .ok :: .ok :: .ok :: .ok :: writes →
    ∃ t0 t evs b0 b1 b2 b3,
      exec (.setChannel n onH onL offH offL) s = .next t0 ∧ runSteps 8 t0 = .next t ∧ t.trace = s.trace ++ evs ∧
      byteWritten (a.setWidth 8) (BitVec.ofNat 8 (0x06 + 4 * n)) evs = some b0 ∧
      byteWritten (a.setWidth 8) (BitVec.ofNat 8 (0x07 + 4 * n)) evs = some b1 ∧
      byteWritten (a.setWidth 8) (BitVec.ofNat 8 (0x08 + 4 * n)) evs = some b2 ∧
      byteWritten (a.setWidth 8) (BitVec.ofNat 8 (0x09 + 4 * n)) evs = some b3 ∧
      (b3 ++ b2 ++ b1 ++ b0 : BitVec 32) = channelWord onH onL offH offL ∧
      (b3 ++ b2 ++ b1 ++ b0 : BitVec 32).toNat = tickValue offH offL * 65536 + tickValue onH onL

/-- R121: the same five operand bytes, issued in two states of any kind with the same address and an `ok` for every
write, give the same events, four write requests among them. The step count is the model's (log entry 8). -/
def Obligations.SetChannelIdempotent : Prop :=
  ∀ (s1 s2 : State) (n : Nat) (onH onL offH offL : Byte) (a : DevAddr) (w1 w2 : List WriteReply),
    s1.phase = .idle → s2.phase = .idle → s1.dev.devState ≠ .unbound → s2.dev.devState ≠ .unbound →
    s1.dev.address = some a → s2.dev.address = some a → s1.env.resets = [] → s2.env.resets = [] →
    operandsLegal s1.cfg (.setChannel n onH onL offH offL) = true →
    s1.env.writeReplies = .ok :: .ok :: .ok :: .ok :: w1 → s2.env.writeReplies = .ok :: .ok :: .ok :: .ok :: w2 →
    ∃ t1 t2 u1 u2 evs,
      exec (.setChannel n onH onL offH offL) s1 = .next t1 ∧ exec (.setChannel n onH onL offH offL) s2 = .next t2 ∧
      runSteps 8 t1 = .next u1 ∧ runSteps 8 t2 = .next u2 ∧
      u1.trace = s1.trace ++ evs ∧ u2.trace = s2.trace ++ evs ∧ (evs.filter isRequest).length = 4 ∧
      ∀ q, Event.request q ∈ evs → ∃ dev reg v, q = .write dev reg v

/-- R119, R23 (decision D14): a `SET_CHANNEL` writes no field of the record and issues no read and no access to MODE1,
MODE2 or PRESCALE: its accepting step issues nothing, as `exec` and as a step, and every request of a step in its four
phases is a write to another register. (A step in which the block is reset is no step of the command.) -/
def Obligations.SetChannelKeepsRecord : Prop :=
  (∀ (s t : State) (n : Nat) (onH onL offH offL : Byte),
    exec (.setChannel n onH onL offH offL) s = .next t →
    t.dev = s.dev ∧ ∃ evs, t.trace = s.trace ++ evs ∧ ∀ q, Event.request q ∉ evs) ∧
  (∀ (s t : State) (w : CommandWord) (rest : List CommandWord) (n : Nat) (onH onL offH offL : Byte) (evs : List Event),
    resetAsserted s = false → s.phase = .idle → s.env.commands = w :: rest →
    decode w = .command (.setChannel n onH onL offH offL) → step s = .next t → t.trace = s.trace ++ evs →
    t.dev = s.dev ∧ ∀ q, Event.request q ∉ evs) ∧
  (∀ (s t : State) (evs : List Event), Inv s → s.phase ∈ [.scWriteOnL, .scWriteOnH, .scWriteOffL, .scWriteOffH] →
    resetAsserted s = false → step s = .next t → t.trace = s.trace ++ evs →
    t.dev = s.dev ∧
    ∀ q, Event.request q ∈ evs →
      ∃ dev reg v, q = .write dev reg v ∧ reg ≠ 0x00#8 ∧ reg ≠ 0x01#8 ∧ reg ≠ 0xFE#8)

/-! ## Errors -/

/-- R138, R139: a step that returns an error writes no field of the record, empties the latches, leaves `phase = IDLE`
with nothing open, and issues no request. -/
def Obligations.ErrorReturnEffect : Prop :=
  ∀ (s t : State) (evs : List Event) (k : ErrorKind), step s = .next t →
    t.trace = s.trace ++ evs ++ [.response (.error k)] →
    t.dev = s.dev ∧ t.cfg = s.cfg ∧ t.phase = .idle ∧ t.lat = Latches.empty ∧ t.requested = false ∧
    ∀ q, Event.request q ∉ evs

/-- R139, R140, X4, X5 (decisions D3, D10): an error other than `BusError` is the whole command: it is answered in the
step that accepts the word, in `IDLE`, so nothing was ever issued for it. -/
def Obligations.ValidationErrorIssuesNothing : Prop :=
  ∀ (s t : State) (evs : List Event) (k : ErrorKind), step s = .next t → (∀ e, k ≠ .busError e) →
    t.trace = s.trace ++ evs ++ [.response (.error k)] →
    s.phase = .idle ∧ ∃ w, evs = [.accepted w]

/-- R136: in each of the nine phases that issue a transaction an `err(e)`, `e` a value of `BUSERR_W` bits, ends the
command with `BusError`, `info = e` unchanged; and `BusError` is returned in no other way, so never by `CONSTRUCT` or
in the settle phase. -/
def Obligations.BusErrorVerbatim : Prop :=
  (∀ (s : State) (e : BusErr), s.cfg.ErrorFits e → resetAsserted s = false → s.requested = true →
    s.phase ≠ .idle → s.phase ≠ .spSettle →
    (s.phase = .spReadMode1 → ∃ rest, s.env.readReplies = .err e :: rest) →
    (s.phase ≠ .spReadMode1 → ∃ rest, s.env.writeReplies = .err e :: rest) →
    ∃ t ev, step s = .next t ∧ t.trace = s.trace ++ [ev, .response (.error (.busError e))] ∧
      responseInfo (.error (.busError e)) = e) ∧
  (∀ (s t : State) (evs : List Event) (e : BusErr), step s = .next t →
    t.trace = s.trace ++ evs ++ [.response (.error (.busError e))] →
    s.phase ≠ .idle ∧ s.phase ≠ .spSettle ∧
    ((s.phase = .spReadMode1 ∧ evs = [.readReply (.err e)]) ∨
     (s.phase ≠ .spReadMode1 ∧ evs = [.writeReply (.err e)])))

/-- R7, R33 (decision D5), and for a value wider than the transport has the model's choice of log entry 2: the error
value of every `BusError` has `BUSERR_W` bits; a value of that width is taken as it is, of a wider one the low
`BUSERR_W` bits. -/
def Obligations.BusErrorWidth : Prop :=
  (∀ (s t : State) (evs : List Event) (e : BusErr), step s = .next t →
    t.trace = s.trace ++ evs ++ [.response (.error (.busError e))] →
    e.toNat < 2 ^ s.cfg.busErrW) ∧
  (∀ (s : State) (e : BusErr), resetAsserted s = false → s.requested = true → s.phase ≠ .idle → s.phase ≠ .spSettle →
    (s.phase = .spReadMode1 → ∃ rest, s.env.readReplies = .err e :: rest) →
    (s.phase ≠ .spReadMode1 → ∃ rest, s.env.writeReplies = .err e :: rest) →
    ∃ t ev e', step s = .next t ∧ t.trace = s.trace ++ [ev, .response (.error (.busError e'))] ∧
      e'.toNat = e.toNat % 2 ^ s.cfg.busErrW)

/-! ## The machine as a whole -/

/-- R7, R18, R20, R42: every step keeps the invariant, from every state that meets it. -/
def Obligations.StepKeepsInvariant : Prop :=
  ∀ s t : State, Inv s → step s = .next t → Inv t

/-- R11: from a state that meets the invariant no step stops: no rule reads a field that holds no value, and no command
is left without a meaning. -/
def Obligations.InvariantStepsGoOn : Prop :=
  ∀ s : State, Inv s → ∃ t, step s = .next t

/-- R12, R42, R43, R96 (decision D18): every step keeps the trace of the command in flight exactly the beginning of its
own full trace. -/
def Obligations.StepKeepsFlightTrace : Prop :=
  ∀ s t : State, Inv s → FlightTrace s → step s = .next t → FlightTrace t

/-- R6, R25, R42, R56, R144 (decisions D2, D16, D23): every step keeps the dialogue well-formed: before the next word
is accepted, the accepted word has had its one response or was cut off by a hardware reset, which returns none (R165,
decision D17; the mark in the trace is log entry 6, reset while busy log entry 16); requests and answers lie only
inside a command. -/
def Obligations.StepKeepsDialogue : Prop :=
  ∀ s t : State, DialogueOk s → step s = .next t → DialogueOk t

/-- R36, R118, R13, R37 (decision D22): every request a step issues lies in the footprint, at the Device's own address;
in particular every byte written to 0xFE is legal and no `_H` byte has a bit of 7:4 set. -/
def Obligations.RequestsInFootprint : Prop :=
  ∀ (s t : State) (evs : List Event) (q : Request), Inv s → step s = .next t →
    t.trace = s.trace ++ evs → Event.request q ∈ evs →
    ∃ a, s.dev.address = some a ∧ InFootprint (a.setWidth 8) s.cfg.settleUs q

/-- R172: a write to PRESCALE is issued only right after an `ok` write to MODE1 with the sleep bit set. -/
def Obligations.PrescaleWriteFollowsSleepWrite : Prop :=
  ∀ (s t : State) (dev p : Byte), Inv s → FlightTrace s → step s = .next t →
    t.trace = s.trace ++ [.request (.write dev 0xFE#8 p)] →
    ∃ before v, s.trace = before ++ [.request (.write dev 0x00#8 v), .writeReply .ok] ∧ v.getLsbD 4 = true

/-- R44, R90, R148, R173 (decision D15): a MODE1 write in phase `SP_WRITE_RESTART` is issued only after a MODE1 write
with the sleep bit clear was answered `ok` and a delay of at least `SETTLE_US` has passed, with nothing in between. -/
def Obligations.RestartWriteFollowsSettle : Prop :=
  ∀ (s t : State) (dev v : Byte), Inv s → FlightTrace s → s.phase = .spWriteRestart → step s = .next t →
    t.trace = s.trace ++ [.request (.write dev 0x00#8 v)] →
    ∃ before rv elapsed, s.trace = before ++ [.request (.write dev 0x00#8 rv), .writeReply .ok,
        .request (.delay s.cfg.settleUs), .delayDone elapsed] ∧
      rv.getLsbD 4 = false ∧ s.cfg.settleUs ≤ elapsed

/-- R13 (and decision D9 for the reset): `address` changes only when a `CONSTRUCT` with a legal address is accepted (to
its low 7 bits) or the block is reset, and an unbound block has none. -/
def Obligations.AddressFixedAtConstruction : Prop :=
  ∀ s t : State, Inv s → step s = .next t →
    (t.dev.address ≠ s.dev.address →
      (resetAsserted s = true ∧ t.dev.address = none) ∨
      (s.phase = .idle ∧ ∃ w rest b, s.env.commands = w :: rest ∧ decode w = .command (.construct b) ∧
        b.toNat ≤ 0x7F ∧ t.dev.address = some (b.setWidth 7))) ∧
    (t.dev.devState = .unbound → t.dev.address = none) ∧
    (∀ q, t.trace = s.trace ++ [.request q] → ∃ a, s.dev.address = some a ∧
      ((∃ us, q = .delay us) ∨ (∃ reg, q = .read (a.setWidth 8) reg) ∨ (∃ reg v, q = .write (a.setWidth 8) reg v)))

/-- R11, R14, R23, R93, R138 (decisions D9, D14): the Device record changes only in a step that answers `Ok` or resets
the block; the trace mark by which the reset is told is the model's own (log entry 6). -/
def Obligations.RecordChangesOnlyWithOk : Prop :=
  ∀ s t : State, step s = .next t → t.dev ≠ s.dev →
    (∃ evs, t.trace = s.trace ++ evs ++ [.response .ok] ∧ t.phase = .idle) ∨ t.trace = s.trace ++ [.hardwareReset]

/-- R12, R25 (decisions D16, D18): the phase moves only along the table; inside a command it moves only with the answer
to its own request; and after the prescale write it goes on only if a restart was asked for, and returns `Ok` only if
none was. -/
def Obligations.PhaseFollowsTable : Prop :=
  ∀ s t : State, resetAsserted s = false → step s = .next t → t.phase ≠ s.phase →
    t.phase ∈ nextPhases s.phase ∧
    (s.phase ≠ .idle → s.requested = true ∧ ∃ ev evs, isReply ev = true ∧ t.trace = s.trace ++ ev :: evs) ∧
    (s.phase = .spWritePrescale → t.phase = .spWriteRestore → s.lat.restartAfter = some true) ∧
    (s.phase = .spWritePrescale → (∃ evs, t.trace = s.trace ++ evs ++ [.response .ok]) →
      s.lat.restartAfter = some false)

/-- R6, R7, R21: no step changes the parameters, takes an event back from the trace, or puts anything into the
environment; it only takes answers and commands from it and counts down to the next reset (log entries 4 and 5). -/
def Obligations.StepOnlyConsumesEnvironment : Prop :=
  ∀ s t : State, step s = .next t →
    t.cfg = s.cfg ∧ (∃ evs, t.trace = s.trace ++ evs) ∧
    (∃ l, s.env.commands = l ++ t.env.commands) ∧ (∃ l, s.env.readReplies = l ++ t.env.readReplies) ∧
    (∃ l, s.env.writeReplies = l ++ t.env.writeReplies) ∧ (∃ l, s.env.timerSlack = l ++ t.env.timerSlack) ∧
    (t.env.resets = countDown s.env.resets ∨ (resetAsserted s = true ∧ t.env.resets = s.env.resets.tail))

/-- R15, R17, R100, R177 (decisions D12, D14): the values of `mode1_cache` and `prescale_cache` decide nothing: with
any others in their place the step ends the same way, in the same state but for the two caches. -/
def Obligations.CachesDecideNothing : Prop :=
  ∀ (s : State) (m p : Option Byte),
    (∀ t, step s = .next t → ∃ m' p', step (withCaches m p s) = .next (withCaches m' p' t)) ∧
    (∀ r, step s = .fault r → step (withCaches m p s) = .fault r) ∧
    (∀ r, step s = .refused r → step (withCaches m p s) = .refused r)

/-- R142, R150 (decision D15): from every state of a command in flight, if the transport and the timer answer and no
reset comes, the command returns exactly one response and the block is idle again; within twelve of the model's steps
(log entry 8). -/
def Obligations.CommandInFlightEnds : Prop :=
  ∀ s : State, Inv s → s.phase ≠ .idle → AnswersReady s →
    ∃ n t evs r, n ≤ 12 ∧ runSteps n s = .next t ∧ t.phase = .idle ∧ t.requested = false ∧
      t.trace = s.trace ++ evs ++ [.response r] ∧ ∀ r', Event.response r' ∉ evs
end

