-- ==== Sys2Proof/Laws/State.lean ====
section
/-! SUPPORT. One lemma per field per update of State: what each shared operation leaves in the field. -/

namespace Sys2Proof.Machine

/-! ### emit -/

@[simp] theorem emit_cfg (e : Event) (s : State) : (emit e s).cfg = s.cfg := rfl
@[simp] theorem emit_dev (e : Event) (s : State) : (emit e s).dev = s.dev := rfl
@[simp] theorem emit_phase (e : Event) (s : State) : (emit e s).phase = s.phase := rfl
@[simp] theorem emit_lat (e : Event) (s : State) : (emit e s).lat = s.lat := rfl
@[simp] theorem emit_requested (e : Event) (s : State) : (emit e s).requested = s.requested := rfl
@[simp] theorem emit_env (e : Event) (s : State) : (emit e s).env = s.env := rfl
@[simp] theorem emit_trace (e : Event) (s : State) : (emit e s).trace = s.trace ++ [e] := rfl

/-! ### endCommand -/

@[simp] theorem endCommand_cfg (r : Response) (s : State) : (endCommand r s).cfg = s.cfg := rfl
@[simp] theorem endCommand_dev (r : Response) (s : State) : (endCommand r s).dev = s.dev := rfl
@[simp] theorem endCommand_phase (r : Response) (s : State) : (endCommand r s).phase = .idle := rfl
@[simp] theorem endCommand_lat (r : Response) (s : State) : (endCommand r s).lat = Latches.empty := rfl
@[simp] theorem endCommand_requested (r : Response) (s : State) : (endCommand r s).requested = false := rfl
@[simp] theorem endCommand_env (r : Response) (s : State) : (endCommand r s).env = s.env := rfl
@[simp] theorem endCommand_trace (r : Response) (s : State) : (endCommand r s).trace = s.trace ++ [.response r] := rfl

/-! ### raiseError -/

@[simp] theorem raiseError_cfg (k : ErrorKind) (s : State) : (raiseError k s).cfg = s.cfg := rfl
@[simp] theorem raiseError_dev (k : ErrorKind) (s : State) : (raiseError k s).dev = s.dev := rfl
@[simp] theorem raiseError_phase (k : ErrorKind) (s : State) : (raiseError k s).phase = .idle := rfl
@[simp] theorem raiseError_lat (k : ErrorKind) (s : State) : (raiseError k s).lat = Latches.empty := rfl
@[simp] theorem raiseError_requested (k : ErrorKind) (s : State) : (raiseError k s).requested = false := rfl
@[simp] theorem raiseError_env (k : ErrorKind) (s : State) : (raiseError k s).env = s.env := rfl
@[simp] theorem raiseError_trace (k : ErrorKind) (s : State) : (raiseError k s).trace = s.trace ++ [.response (.error k)] := rfl

/-! ### returnOk -/

@[simp] theorem returnOk_cfg (s : State) : (returnOk s).cfg = s.cfg := rfl
@[simp] theorem returnOk_dev (s : State) : (returnOk s).dev = s.dev := rfl
@[simp] theorem returnOk_phase (s : State) : (returnOk s).phase = .idle := rfl
@[simp] theorem returnOk_lat (s : State) : (returnOk s).lat = Latches.empty := rfl
@[simp] theorem returnOk_requested (s : State) : (returnOk s).requested = false := rfl
@[simp] theorem returnOk_env (s : State) : (returnOk s).env = s.env := rfl
@[simp] theorem returnOk_trace (s : State) : (returnOk s).trace = s.trace ++ [.response .ok] := rfl

/-! ### enterPhase -/

@[simp] theorem enterPhase_cfg (p : Phase) (l : Latches) (s : State) : (enterPhase p l s).cfg = s.cfg := rfl
@[simp] theorem enterPhase_dev (p : Phase) (l : Latches) (s : State) : (enterPhase p l s).dev = s.dev := rfl
@[simp] theorem enterPhase_phase (p : Phase) (l : Latches) (s : State) : (enterPhase p l s).phase = p := rfl
@[simp] theorem enterPhase_lat (p : Phase) (l : Latches) (s : State) : (enterPhase p l s).lat = l := rfl
@[simp] theorem enterPhase_requested (p : Phase) (l : Latches) (s : State) : (enterPhase p l s).requested = false := rfl
@[simp] theorem enterPhase_env (p : Phase) (l : Latches) (s : State) : (enterPhase p l s).env = s.env := rfl
@[simp] theorem enterPhase_trace (p : Phase) (l : Latches) (s : State) : (enterPhase p l s).trace = s.trace := rfl

/-! ### advance -/

@[simp] theorem advance_cfg (p : Phase) (s : State) : (advance p s).cfg = s.cfg := rfl
@[simp] theorem advance_dev (p : Phase) (s : State) : (advance p s).dev = s.dev := rfl
@[simp] theorem advance_phase (p : Phase) (s : State) : (advance p s).phase = p := rfl
@[simp] theorem advance_lat (p : Phase) (s : State) : (advance p s).lat = s.lat := rfl
@[simp] theorem advance_requested (p : Phase) (s : State) : (advance p s).requested = false := rfl
@[simp] theorem advance_env (p : Phase) (s : State) : (advance p s).env = s.env := rfl
@[simp] theorem advance_trace (p : Phase) (s : State) : (advance p s).trace = s.trace := rfl

/-! ### issue -/

@[simp] theorem issue_cfg (r : Request) (s : State) : (issue r s).cfg = s.cfg := rfl
@[simp] theorem issue_dev (r : Request) (s : State) : (issue r s).dev = s.dev := rfl
@[simp] theorem issue_phase (r : Request) (s : State) : (issue r s).phase = s.phase := rfl
@[simp] theorem issue_lat (r : Request) (s : State) : (issue r s).lat = s.lat := rfl
@[simp] theorem issue_requested (r : Request) (s : State) : (issue r s).requested = true := rfl
@[simp] theorem issue_env (r : Request) (s : State) : (issue r s).env = s.env := rfl
@[simp] theorem issue_trace (r : Request) (s : State) : (issue r s).trace = s.trace ++ [.request r] := rfl

/-! ### acceptCommand -/

@[simp] theorem acceptCommand_cfg (w : CommandWord) (rest : List CommandWord) (s : State) : (acceptCommand w rest s).cfg = s.cfg := rfl
@[simp] theorem acceptCommand_dev (w : CommandWord) (rest : List CommandWord) (s : State) : (acceptCommand w rest s).dev = s.dev := rfl
@[simp] theorem acceptCommand_phase (w : CommandWord) (rest : List CommandWord) (s : State) : (acceptCommand w rest s).phase = s.phase := rfl
@[simp] theorem acceptCommand_lat (w : CommandWord) (rest : List CommandWord) (s : State) : (acceptCommand w rest s).lat = s.lat := rfl
@[simp] theorem acceptCommand_requested (w : CommandWord) (rest : List CommandWord) (s : State) : (acceptCommand w rest s).requested = s.requested := rfl
@[simp] theorem acceptCommand_env (w : CommandWord) (rest : List CommandWord) (s : State) : (acceptCommand w rest s).env = { s.env with commands := rest } := rfl
@[simp] theorem acceptCommand_trace (w : CommandWord) (rest : List CommandWord) (s : State) : (acceptCommand w rest s).trace = s.trace ++ [.accepted w] := rfl

/-! ### hardwareReset -/

@[simp] theorem hardwareReset_cfg (s : State) : (hardwareReset s).cfg = s.cfg := rfl
@[simp] theorem hardwareReset_dev (s : State) : (hardwareReset s).dev = Device.unbound := rfl
@[simp] theorem hardwareReset_phase (s : State) : (hardwareReset s).phase = .idle := rfl
@[simp] theorem hardwareReset_lat (s : State) : (hardwareReset s).lat = Latches.empty := rfl
@[simp] theorem hardwareReset_requested (s : State) : (hardwareReset s).requested = false := rfl
@[simp] theorem hardwareReset_env (s : State) : (hardwareReset s).env = { s.env with resets := s.env.resets.tail } := rfl
@[simp] theorem hardwareReset_trace (s : State) : (hardwareReset s).trace = s.trace ++ [.hardwareReset] := rfl

/-! ### offerCommand -/

@[simp] theorem offerCommand_cfg (w : CommandWord) (s : State) : (offerCommand w s).cfg = s.cfg := rfl
@[simp] theorem offerCommand_dev (w : CommandWord) (s : State) : (offerCommand w s).dev = s.dev := rfl
@[simp] theorem offerCommand_phase (w : CommandWord) (s : State) : (offerCommand w s).phase = .idle := rfl
@[simp] theorem offerCommand_lat (w : CommandWord) (s : State) : (offerCommand w s).lat = Latches.empty := rfl
@[simp] theorem offerCommand_requested (w : CommandWord) (s : State) : (offerCommand w s).requested = false := rfl
@[simp] theorem offerCommand_env (w : CommandWord) (s : State) : (offerCommand w s).env = { s.env with commands := w :: s.env.commands, resets := [] } := rfl
@[simp] theorem offerCommand_trace (w : CommandWord) (s : State) : (offerCommand w s).trace = s.trace := rfl

/-! ### answeredRead -/

@[simp] theorem answeredRead_cfg (s : State) (r : ReadReply) (rest : List ReadReply) : (answeredRead s r rest).cfg = s.cfg := rfl
@[simp] theorem answeredRead_dev (s : State) (r : ReadReply) (rest : List ReadReply) : (answeredRead s r rest).dev = s.dev := rfl
@[simp] theorem answeredRead_phase (s : State) (r : ReadReply) (rest : List ReadReply) : (answeredRead s r rest).phase = s.phase := rfl
@[simp] theorem answeredRead_lat (s : State) (r : ReadReply) (rest : List ReadReply) : (answeredRead s r rest).lat = s.lat := rfl
@[simp] theorem answeredRead_requested (s : State) (r : ReadReply) (rest : List ReadReply) : (answeredRead s r rest).requested = false := rfl
@[simp] theorem answeredRead_env (s : State) (r : ReadReply) (rest : List ReadReply) : (answeredRead s r rest).env = { s.env with readReplies := rest } := rfl
@[simp] theorem answeredRead_trace (s : State) (r : ReadReply) (rest : List ReadReply) : (answeredRead s r rest).trace = s.trace ++ [.readReply r] := rfl

/-! ### answeredWrite -/

@[simp] theorem answeredWrite_cfg (s : State) (r : WriteReply) (rest : List WriteReply) : (answeredWrite s r rest).cfg = s.cfg := rfl
@[simp] theorem answeredWrite_dev (s : State) (r : WriteReply) (rest : List WriteReply) : (answeredWrite s r rest).dev = s.dev := rfl
@[simp] theorem answeredWrite_phase (s : State) (r : WriteReply) (rest : List WriteReply) : (answeredWrite s r rest).phase = s.phase := rfl
@[simp] theorem answeredWrite_lat (s : State) (r : WriteReply) (rest : List WriteReply) : (answeredWrite s r rest).lat = s.lat := rfl
@[simp] theorem answeredWrite_requested (s : State) (r : WriteReply) (rest : List WriteReply) : (answeredWrite s r rest).requested = false := rfl
@[simp] theorem answeredWrite_env (s : State) (r : WriteReply) (rest : List WriteReply) : (answeredWrite s r rest).env = { s.env with writeReplies := rest } := rfl
@[simp] theorem answeredWrite_trace (s : State) (r : WriteReply) (rest : List WriteReply) : (answeredWrite s r rest).trace = s.trace ++ [.writeReply r] := rfl

/-! ### answeredDelay -/

@[simp] theorem answeredDelay_cfg (s : State) (extra : Nat) (rest : List Nat) : (answeredDelay s extra rest).cfg = s.cfg := rfl
@[simp] theorem answeredDelay_dev (s : State) (extra : Nat) (rest : List Nat) : (answeredDelay s extra rest).dev = s.dev := rfl
@[simp] theorem answeredDelay_phase (s : State) (extra : Nat) (rest : List Nat) : (answeredDelay s extra rest).phase = s.phase := rfl
@[simp] theorem answeredDelay_lat (s : State) (extra : Nat) (rest : List Nat) : (answeredDelay s extra rest).lat = s.lat := rfl
@[simp] theorem answeredDelay_requested (s : State) (extra : Nat) (rest : List Nat) : (answeredDelay s extra rest).requested = false := rfl
@[simp] theorem answeredDelay_env (s : State) (extra : Nat) (rest : List Nat) : (answeredDelay s extra rest).env = { s.env with timerSlack := rest } := rfl
@[simp] theorem answeredDelay_trace (s : State) (extra : Nat) (rest : List Nat) : (answeredDelay s extra rest).trace = s.trace ++ [.delayDone (s.cfg.settleUs + extra)] := rfl

/-! ### The latches each command writes (R20) -/

@[simp] theorem latchesEmpty_restartAfter : Latches.empty.restartAfter = none := rfl
@[simp] theorem latchesEmpty_p : Latches.empty.p = none := rfl
@[simp] theorem latchesEmpty_m0 : Latches.empty.m0 = none := rfl
@[simp] theorem latchesEmpty_s : Latches.empty.s = none := rfl
@[simp] theorem latchesEmpty_rv : Latches.empty.rv = none := rfl
@[simp] theorem latchesEmpty_rs : Latches.empty.rs = none := rfl
@[simp] theorem latchesEmpty_base : Latches.empty.base = none := rfl
@[simp] theorem latchesEmpty_onL : Latches.empty.onL = none := rfl
@[simp] theorem latchesEmpty_onH : Latches.empty.onH = none := rfl
@[simp] theorem latchesEmpty_offL : Latches.empty.offL = none := rfl
@[simp] theorem latchesEmpty_offH : Latches.empty.offH = none := rfl

@[simp] theorem prescaleLatches_restartAfter (r : Bool) (p : Byte) : (prescaleLatches r p).restartAfter = some r := rfl
@[simp] theorem prescaleLatches_p (r : Bool) (p : Byte) : (prescaleLatches r p).p = some p := rfl
@[simp] theorem prescaleLatches_m0 (r : Bool) (p : Byte) : (prescaleLatches r p).m0 = none := rfl
@[simp] theorem prescaleLatches_s (r : Bool) (p : Byte) : (prescaleLatches r p).s = none := rfl
@[simp] theorem prescaleLatches_rv (r : Bool) (p : Byte) : (prescaleLatches r p).rv = none := rfl
@[simp] theorem prescaleLatches_rs (r : Bool) (p : Byte) : (prescaleLatches r p).rs = none := rfl
@[simp] theorem prescaleLatches_base (r : Bool) (p : Byte) : (prescaleLatches r p).base = none := rfl
@[simp] theorem prescaleLatches_onL (r : Bool) (p : Byte) : (prescaleLatches r p).onL = none := rfl
@[simp] theorem prescaleLatches_onH (r : Bool) (p : Byte) : (prescaleLatches r p).onH = none := rfl
@[simp] theorem prescaleLatches_offL (r : Bool) (p : Byte) : (prescaleLatches r p).offL = none := rfl
@[simp] theorem prescaleLatches_offH (r : Bool) (p : Byte) : (prescaleLatches r p).offH = none := rfl

@[simp] theorem latchMode1_restartAfter (m0 : Byte) (l : Latches) : (latchMode1 m0 l).restartAfter = l.restartAfter := rfl
@[simp] theorem latchMode1_p (m0 : Byte) (l : Latches) : (latchMode1 m0 l).p = l.p := rfl
@[simp] theorem latchMode1_m0 (m0 : Byte) (l : Latches) : (latchMode1 m0 l).m0 = some m0 := rfl
@[simp] theorem latchMode1_s (m0 : Byte) (l : Latches) : (latchMode1 m0 l).s = some (sleepByte m0) := rfl
@[simp] theorem latchMode1_rv (m0 : Byte) (l : Latches) : (latchMode1 m0 l).rv = some (restoreByte m0) := rfl
@[simp] theorem latchMode1_rs (m0 : Byte) (l : Latches) : (latchMode1 m0 l).rs = some (restartByte (restoreByte m0)) := rfl
@[simp] theorem latchMode1_base (m0 : Byte) (l : Latches) : (latchMode1 m0 l).base = l.base := rfl
@[simp] theorem latchMode1_onL (m0 : Byte) (l : Latches) : (latchMode1 m0 l).onL = l.onL := rfl
@[simp] theorem latchMode1_onH (m0 : Byte) (l : Latches) : (latchMode1 m0 l).onH = l.onH := rfl
@[simp] theorem latchMode1_offL (m0 : Byte) (l : Latches) : (latchMode1 m0 l).offL = l.offL := rfl
@[simp] theorem latchMode1_offH (m0 : Byte) (l : Latches) : (latchMode1 m0 l).offH = l.offH := rfl

@[simp] theorem channelLatches_restartAfter (base onH onL offH offL : Byte) :
    (channelLatches base onH onL offH offL).restartAfter = none := rfl
@[simp] theorem channelLatches_p (base onH onL offH offL : Byte) :
    (channelLatches base onH onL offH offL).p = none := rfl
@[simp] theorem channelLatches_m0 (base onH onL offH offL : Byte) :
    (channelLatches base onH onL offH offL).m0 = none := rfl
@[simp] theorem channelLatches_s (base onH onL offH offL : Byte) :
    (channelLatches base onH onL offH offL).s = none := rfl
@[simp] theorem channelLatches_rv (base onH onL offH offL : Byte) :
    (channelLatches base onH onL offH offL).rv = none := rfl
@[simp] theorem channelLatches_rs (base onH onL offH offL : Byte) :
    (channelLatches base onH onL offH offL).rs = none := rfl
@[simp] theorem channelLatches_base (base onH onL offH offL : Byte) :
    (channelLatches base onH onL offH offL).base = some base := rfl
@[simp] theorem channelLatches_onL (base onH onL offH offL : Byte) :
    (channelLatches base onH onL offH offL).onL = some onL := rfl
@[simp] theorem channelLatches_onH (base onH onL offH offL : Byte) :
    (channelLatches base onH onL offH offL).onH = some onH := rfl
@[simp] theorem channelLatches_offL (base onH onL offH offL : Byte) :
    (channelLatches base onH onL offH offL).offL = some offL := rfl
@[simp] theorem channelLatches_offH (base onH onL offH offL : Byte) :
    (channelLatches base onH onL offH offL).offH = some offH := rfl

/-! ### countReset: only the count to the next reset changes -/

@[simp] theorem countReset_cfg (s : State) : (countReset s).cfg = s.cfg := rfl
@[simp] theorem countReset_dev (s : State) : (countReset s).dev = s.dev := rfl
@[simp] theorem countReset_phase (s : State) : (countReset s).phase = s.phase := rfl
@[simp] theorem countReset_lat (s : State) : (countReset s).lat = s.lat := rfl
@[simp] theorem countReset_requested (s : State) : (countReset s).requested = s.requested := rfl
@[simp] theorem countReset_trace (s : State) : (countReset s).trace = s.trace := rfl
@[simp] theorem countReset_env_commands (s : State) : (countReset s).env.commands = s.env.commands := rfl
@[simp] theorem countReset_env_readReplies (s : State) : (countReset s).env.readReplies = s.env.readReplies := rfl
@[simp] theorem countReset_env_writeReplies (s : State) : (countReset s).env.writeReplies = s.env.writeReplies := rfl
@[simp] theorem countReset_env_timerSlack (s : State) : (countReset s).env.timerSlack = s.env.timerSlack := rfl
@[simp] theorem countReset_env_resets (s : State) : (countReset s).env.resets = countDown s.env.resets := rfl

theorem countReset_of_no_resets (s : State) (h : s.env.resets = []) : countReset s = s := by
  have e : countDown s.env.resets = s.env.resets := by rw [h]; rfl
  unfold countReset
  rw [e]

theorem resetAsserted_of_no_resets (s : State) (h : s.env.resets = []) : resetAsserted s = false := by
  simp [resetAsserted, h]

theorem resetAsserted_iff (s : State) : resetAsserted s = true ↔ ∃ rest, s.env.resets = 0 :: rest := by
  unfold resetAsserted
  split
  · simp_all
  · rename_i h
    simpa using fun rest h' => h rest h'

end Sys2Proof.Machine
end

