-- ==== Sys2Proof/Laws/Operands.lean ====
section
/-! SUPPORT. The operand computations in the spec's own numerals, and the legality checks as inequalities. -/

namespace Sys2Proof.Machine

theorem devByte_eq (a : DevAddr) : devByte a = a.setWidth 8 := rfl

/-- A value of `BUSERR_W` bits reaches the block as it is. -/
theorem errorLines_of_fits {c : Config} {e : BusErr} (h : c.ErrorFits e) : errorLines c e = e := by
  have h8 := e.isLt
  apply BitVec.eq_of_toNat_eq
  simp only [errorLines, BitVec.toNat_setWidth, Nat.mod_eq_of_lt h, Nat.mod_eq_of_lt h8]

/-- What reaches the block has at most `BUSERR_W` bits. -/
theorem errorLines_fits (c : Config) (e : BusErr) : c.ErrorFits (errorLines c e) := by
  simp only [Config.ErrorFits, errorLines, BitVec.toNat_setWidth]
  exact (Nat.mod_le _ _).trans_lt (Nat.mod_lt _ (Nat.two_pow_pos _))

theorem devAddrOf_eq (b : Byte) : devAddrOf b = b.setWidth 7 := by
  apply BitVec.eq_of_getLsbD_eq
  simp [devAddrOf]

theorem sleepByte_eq (m0 : Byte) : sleepByte m0 = (m0 &&& 0x7F#8) ||| 0x10#8 := rfl

theorem restoreByte_eq (m0 : Byte) : restoreByte m0 = m0 &&& 0xEF#8 := rfl

theorem restartByte_eq (rv : Byte) : restartByte rv = rv ||| 0x80#8 := rfl

/-- R91's two forms of `RS` agree. -/
theorem restartByte_restoreByte (m0 : Byte) : restartByte (restoreByte m0) = (m0 &&& 0x6F#8) ||| 0x80#8 := by
  revert m0; decide

theorem addressLegal_iff (b : Byte) : addressLegal b = true ↔ b.toNat ≤ 0x7F := by simp [addressLegal]

theorem frequencyLegal_iff (c : Config) (f : Nat) :
    frequencyLegal c f = true ↔ c.freqMinHz ≤ f ∧ f ≤ c.freqMaxHz := by simp [frequencyLegal]

theorem channelLegal_iff (n : Nat) : channelLegal n = true ↔ n ≤ 15 := by
  rw [channelLegal, decide_eq_true_eq]; exact Nat.lt_succ_iff

theorem tickHighLegal_iff (h : Byte) : tickHighLegal h = true ↔ h.toNat ≤ 0x0F := by simp [tickHighLegal]

theorem prescaleLegal_iff (p : Byte) : prescaleLegal p = true ↔ 3 ≤ p.toNat ∧ p.toNat ≤ 255 := by
  rw [prescaleLegal, decide_eq_true_eq]

theorem prescaleQuotient_eq (f : Nat) : prescaleQuotient f = (25000000 + 2048 * f) / (4096 * f) := rfl

/-- The clamp of R84 in the reader's form; the byte never wraps. -/
theorem prescaleByte_toNat (f : Nat) :
    ((prescaleByte f).toNat : Int) = max 3 (min 255 ((prescaleQuotient f : Int) - 1)) := by
  have e : prescaleByte f = BitVec.ofInt 8 (clampInt ((prescaleQuotient f : Int) - 1) 3 255) := rfl
  rw [e, BitVec.toNat_ofInt, clampInt]
  split_ifs <;> omega

/-- The register of a channel, in the spec's numerals (R49). -/
theorem channelReg_channelBase (n k : Nat) :
    channelReg (channelBase n) k = BitVec.ofNat 8 (0x06 + k + 4 * n) := by
  have e : channelBase n = BitVec.ofNat 8 (6 + 4 * n) := rfl
  rw [e, channelReg]
  apply BitVec.eq_of_toNat_eq
  simp only [BitVec.toNat_add, BitVec.toNat_ofNat]
  omega

/-- No channel register wraps (R49). -/
theorem channelReg_toNat {n k : Nat} (hn : n ≤ 15) (hk : k ≤ 3) :
    (channelReg (channelBase n) k).toNat = 0x06 + 4 * n + k := by
  rw [channelReg_channelBase, BitVec.toNat_ofNat]
  omega

end Sys2Proof.Machine
end

