-- ==== Sys2Proof/Laws/Ops.lean ====
section
/-! SUPPORT. What each shared operation can do, said once: the requests, the three waits, the commit, and the bytes. -/

namespace Sys2Proof.Machine

/-- A command body that gives a next state either waited (not idle) or ran from `IDLE`. -/
theorem whenIdle_cases {s : State} {body r : Result} (h : whenIdle s body = r) :
    (s.phase ≠ .idle ∧ r = .next s) ∨ (s.phase = .idle ∧ body = r) := by
  unfold whenIdle at h
  split at h
  · exact .inr ⟨‹_›, h⟩
  · exact .inl ⟨‹_›, h.symm⟩

theorem whenIdle_idle {s : State} (body : Result) (h : s.phase = .idle) : whenIdle s body = body := if_pos h

theorem whenIdle_busy {s : State} (body : Result) (h : s.phase ≠ .idle) : whenIdle s body = .next s := if_neg h

/-- A read request names the Device's own address. -/
theorem readRequest_eq_some {s : State} {reg : Byte} {q : Request} (h : readRequest s reg = some q) :
    ∃ a, s.dev.address = some a ∧ q = .read (devByte a) reg := by
  unfold readRequest at h
  cases ha : s.dev.address <;> simp_all

/-- A write request names the Device's own address, and the register and the byte are there. -/
theorem writeRequest_eq_some {s : State} {reg v : Option Byte} {q : Request} (h : writeRequest s reg v = some q) :
    ∃ a r b, s.dev.address = some a ∧ reg = some r ∧ v = some b ∧ q = .write (devByte a) r b := by
  unfold writeRequest at h
  cases ha : s.dev.address <;> cases reg <;> cases v <;> simp_all

theorem readRequest_of_address {s : State} {a : DevAddr} (reg : Byte) (h : s.dev.address = some a) :
    readRequest s reg = some (.read (devByte a) reg) := by
  simp [readRequest, h]

theorem writeRequest_of_address {s : State} {a : DevAddr} (r v : Byte) (h : s.dev.address = some a) :
    writeRequest s (some r) (some v) = some (.write (devByte a) r v) := by
  simp [writeRequest, h]

/-- Waiting for a read: nothing yet, or the first reply is taken and acted on. -/
theorem awaitRead_cases {s : State} {onOk : Byte → State → Result} {r : Result} (h : awaitRead s onOk = r) :
    (s.env.readReplies = [] ∧ r = .next s) ∨
    (∃ b rest, s.env.readReplies = .ok b :: rest ∧
      onOk b (answeredRead s (.ok b) rest) = r) ∨
    (∃ e rest, s.env.readReplies = .err e :: rest ∧
      r = .next (raiseError (.busError (errorLines s.cfg e)) (answeredRead s (.err (errorLines s.cfg e)) rest))) := by
  unfold awaitRead at h
  split at h
  · exact .inl ⟨‹_›, h.symm⟩
  · exact .inr (.inl ⟨_, _, ‹_›, h⟩)
  · exact .inr (.inr ⟨_, _, ‹_›, h.symm⟩)

/-- Waiting for a write: nothing yet, or the first reply is taken and acted on. -/
theorem awaitWrite_cases {s : State} {onOk : State → Result} {r : Result} (h : awaitWrite s onOk = r) :
    (s.env.writeReplies = [] ∧ r = .next s) ∨
    (∃ rest, s.env.writeReplies = .ok :: rest ∧
      onOk (answeredWrite s .ok rest) = r) ∨
    (∃ e rest, s.env.writeReplies = .err e :: rest ∧
      r = .next (raiseError (.busError (errorLines s.cfg e)) (answeredWrite s (.err (errorLines s.cfg e)) rest))) := by
  unfold awaitWrite at h
  split at h
  · exact .inl ⟨‹_›, h.symm⟩
  · exact .inr (.inl ⟨_, ‹_›, h⟩)
  · exact .inr (.inr ⟨_, _, ‹_›, h.symm⟩)

/-- Waiting for the timer: nothing yet, or its answer is taken; it never fails. -/
theorem awaitDelay_cases {s : State} {onDone : State → Result} {r : Result} (h : awaitDelay s onDone = r) :
    (s.env.timerSlack = [] ∧ r = .next s) ∨
    (∃ extra rest, s.env.timerSlack = extra :: rest ∧
      onDone (answeredDelay s extra rest) = r) := by
  unfold awaitDelay at h
  split at h
  · exact .inl ⟨‹_›, h.symm⟩
  · exact .inr ⟨_, _, ‹_›, h⟩

/-- A commit that gives a next state wrote the two bytes and the new `dev_state`, and answered `Ok`. -/
theorem commitPrescale_next {mode1 prescale : Option Byte} {d : DevState} {s t : State}
    (h : commitPrescale mode1 prescale d s = .next t) :
    ∃ m p, mode1 = some m ∧ prescale = some p ∧
      t = returnOk { s with dev := { s.dev with mode1Cache := some m, prescaleCache := some p, devState := d } } := by
  cases mode1 <;> cases prescale <;> simp_all [commitPrescale]

/-- A `CONSTRUCT` that ran from `IDLE` bound a legal address or raised `ConfigError`. -/
theorem execConstruct_cases {address : Byte} {s t : State} (h : execConstruct address s = .next t) :
    (s.phase ≠ .idle ∧ t = s) ∨
    (s.phase = .idle ∧ addressLegal address = true ∧ t = returnOk { s with dev := constructedDevice address }) ∨
    (s.phase = .idle ∧ addressLegal address = false ∧ t = raiseError .configError s) := by
  obtain ⟨hp, hr⟩ | ⟨hp, hb⟩ := whenIdle_cases h
  · exact .inl ⟨hp, by simpa using hr⟩
  · cases hl : addressLegal address <;> simp_all

/-- A `SET_PRESCALE_FROM_FREQUENCY` that ran from `IDLE` raised a validation error or went to its first phase. -/
theorem execSetPrescale_cases {f : Nat} {r : Bool} {s t : State}
    (h : execSetPrescaleFromFrequency f r s = .next t) :
    (s.phase ≠ .idle ∧ t = s) ∨
    (s.phase = .idle ∧ s.dev.devState = .unbound ∧ t = raiseError .configError s) ∨
    (s.phase = .idle ∧ s.dev.devState ≠ .unbound ∧ frequencyLegal s.cfg f = false ∧
      t = raiseError .invalidFrequency s) ∨
    (s.phase = .idle ∧ s.dev.devState ≠ .unbound ∧ frequencyLegal s.cfg f = true ∧ f ≠ 0 ∧
      t = enterPhase .spReadMode1 (prescaleLatches r (prescaleByte f)) s) := by
  obtain ⟨hp, hr⟩ | ⟨hp, hb⟩ := whenIdle_cases h
  · exact .inl ⟨hp, by simpa using hr⟩
  · right
    split_ifs at hb <;> simp_all

/-- A `SET_CHANNEL` that ran from `IDLE` raised a validation error or went to its first phase. -/
theorem execSetChannel_cases {n : Nat} {onH onL offH offL : Byte} {s t : State}
    (h : execSetChannel n onH onL offH offL s = .next t) :
    (s.phase ≠ .idle ∧ t = s) ∨
    (s.phase = .idle ∧ s.dev.devState = .unbound ∧ t = raiseError .configError s) ∨
    (s.phase = .idle ∧ s.dev.devState ≠ .unbound ∧ channelLegal n = false ∧ t = raiseError .invalidChannel s) ∨
    (s.phase = .idle ∧ s.dev.devState ≠ .unbound ∧ channelLegal n = true ∧
      (tickHighLegal onH && tickHighLegal offH) = false ∧ t = raiseError .invalidTick s) ∨
    (s.phase = .idle ∧ s.dev.devState ≠ .unbound ∧ channelLegal n = true ∧ tickHighLegal onH = true ∧
      tickHighLegal offH = true ∧
      t = enterPhase .scWriteOnL (channelLatches (channelBase n) onH onL offH offL) s) := by
  obtain ⟨hp, hr⟩ | ⟨hp, hb⟩ := whenIdle_cases h
  · exact .inl ⟨hp, by simpa using hr⟩
  · right
    split_ifs at hb <;> simp_all

end Sys2Proof.Machine
end

