-- ==== Sys2Proof/Laws/PerInstr.lean ====
section
/-! SUPPORT. Per command: its word is of its own row of the opcode table (R51 to R53), whatever its operands. -/

namespace Sys2Proof.Laws.EncodingMatchesTable

open Sys2Proof

/-- The word of a command meets its table row's mask and pattern. -/
def Statement (i : Instr) : Prop := matchesRow (rowOf i) (encode i) = true

theorem construct (address : Byte) : Statement (.construct address) := by
  rw [Statement, matchesRow, decide_eq_true_eq]
  apply BitVec.eq_of_getLsbD_eq
  intro k hk
  interval_cases k <;> simp [rowOf, rowConstruct, encode, fieldAt]

theorem setPrescaleFromFrequency (frequencyHz : Nat) (restartAfter : Bool) :
    Statement (.setPrescaleFromFrequency frequencyHz restartAfter) := by
  rw [Statement, matchesRow, decide_eq_true_eq]
  apply BitVec.eq_of_getLsbD_eq
  intro k hk
  interval_cases k <;> simp [rowOf, rowSetPrescale, encode, fieldAt]

theorem setChannel (channelIndex : Nat) (onH onL offH offL : Byte) :
    Statement (.setChannel channelIndex onH onL offH offL) := by
  rw [Statement, matchesRow, decide_eq_true_eq]
  apply BitVec.eq_of_getLsbD_eq
  intro k hk
  interval_cases k <;> simp [rowOf, rowSetChannel, encode, fieldAt]

end Sys2Proof.Laws.EncodingMatchesTable
end

