-- ==== Sys2Proof/Laws/Step.lean ====
section
/-! SUPPORT. What a step can do, said once: the inversion of `step`, and its equations phase by phase. -/

namespace Sys2Proof.Machine

theorem step_reset {s : State} (h : resetAsserted s = true) : step s = .next (hardwareReset s) := if_pos h

theorem step_run {s : State} (h : resetAsserted s = false) : step s = runStep (countReset s) := by
  simp [step, h]

theorem step_idle {s : State} (h : resetAsserted s = false) (hp : s.phase = .idle) :
    step s = idleStep (countReset s) := by
  simp [step_run h, runStep, hp]

theorem step_complete {s : State} (h : resetAsserted s = false) (hp : s.phase ≠ .idle) (hr : s.requested = true) :
    step s = completePhase (countReset s) := by
  simp [step_run h, runStep, hp, hr]

theorem step_issue {s : State} (h : resetAsserted s = false) (hp : s.phase ≠ .idle) (hr : s.requested = false) :
    step s = issuePhase (countReset s) := by
  simp [step_run h, runStep, hp, hr]

/-- An idle step: nothing offered, an illegal word answered, or a command's accepting step. -/
theorem idleStep_cases {s : State} {r : Result} (h : idleStep s = r) :
    (s.env.commands = [] ∧ r = .next s) ∨
    (∃ w rest i, s.env.commands = w :: rest ∧ decode w = .command i ∧ exec i (acceptCommand w rest s) = r) ∨
    (∃ w rest why, s.env.commands = w :: rest ∧ decode w = .illegal why ∧
      r = .next (illegalCommand (acceptCommand w rest s))) := by
  unfold idleStep at h
  split at h
  · exact .inl ⟨‹_›, h.symm⟩
  · split at h
    · exact .inr (.inl ⟨_, _, _, ‹_›, ‹_›, h⟩)
    · exact .inr (.inr ⟨_, _, _, ‹_›, ‹_›, h.symm⟩)

/-- Issuing: the phase's request goes out and nothing else changes. -/
theorem issuePhase_next {s t : State} (h : issuePhase s = .next t) :
    ∃ q, phaseRequest s = some q ∧ t = issue q s := by
  unfold issuePhase at h
  split at h
  · exact ⟨_, ‹_›, by simpa using h.symm⟩
  · cases h

/-- What `completePhase` did, when it gave a next state: it waited, or took the one reply the phase waits for. -/
inductive Completed (s t : State) : Prop
  | waited (h : t = s)
  | readOk (m0 : Byte) (rest : List ReadReply) (hp : s.phase = .spReadMode1) (he : s.env.readReplies = .ok m0 :: rest)
      (ht : t = advance .spWriteSleep { answeredRead s (.ok m0) rest with lat := latchMode1 m0 s.lat })
  | readErr (e : BusErr) (rest : List ReadReply) (hp : s.phase = .spReadMode1)
      (he : s.env.readReplies = .err e :: rest)
      (ht : t = raiseError (.busError (errorLines s.cfg e)) (answeredRead s (.err (errorLines s.cfg e)) rest))
  | writeErr (e : BusErr) (rest : List WriteReply) (hr : s.phase ≠ .spReadMode1) (hs : s.phase ≠ .spSettle)
      (hi : s.phase ≠ .idle) (he : s.env.writeReplies = .err e :: rest)
      (ht : t = raiseError (.busError (errorLines s.cfg e)) (answeredWrite s (.err (errorLines s.cfg e)) rest))
  | delayDone (extra : Nat) (rest : List Nat) (hp : s.phase = .spSettle) (he : s.env.timerSlack = extra :: rest)
      (ht : t = advance .spWriteRestart (answeredDelay s extra rest))
  | wentOn (rest : List WriteReply) (p : Phase)
      (hp : (s.phase, p) ∈ [(Phase.spWriteSleep, Phase.spWritePrescale), (.spWriteRestore, .spSettle),
        (.scWriteOnL, .scWriteOnH), (.scWriteOnH, .scWriteOffL), (.scWriteOffL, .scWriteOffH)])
      (he : s.env.writeReplies = .ok :: rest) (ht : t = advance p (answeredWrite s .ok rest))
  | toRestore (rest : List WriteReply) (hp : s.phase = .spWritePrescale) (hl : s.lat.restartAfter = some true)
      (he : s.env.writeReplies = .ok :: rest) (ht : t = advance .spWriteRestore (answeredWrite s .ok rest))
  | committedAsleep (rest : List WriteReply) (m p : Byte) (hp : s.phase = .spWritePrescale)
      (hl : s.lat.restartAfter = some false) (hm : s.lat.s = some m) (hv : s.lat.p = some p)
      (he : s.env.writeReplies = .ok :: rest)
      (ht : t = returnOk { answeredWrite s .ok rest with
        dev := { s.dev with mode1Cache := some m, prescaleCache := some p, devState := .sleeping } })
  | committedActive (rest : List WriteReply) (m p : Byte) (hp : s.phase = .spWriteRestart)
      (hm : s.lat.rs = some m) (hv : s.lat.p = some p) (he : s.env.writeReplies = .ok :: rest)
      (ht : t = returnOk { answeredWrite s .ok rest with
        dev := { s.dev with mode1Cache := some m, prescaleCache := some p, devState := .active } })
  | channelDone (rest : List WriteReply) (hp : s.phase = .scWriteOffH) (he : s.env.writeReplies = .ok :: rest)
      (ht : t = returnOk (answeredWrite s .ok rest))

/-- The inversion of `completePhase`. -/
theorem completePhase_cases {s t : State} (h : completePhase s = .next t) : Completed s t := by
  unfold completePhase at h
  split at h
  · exact .waited (by simpa using h.symm)
  · obtain ⟨_, h⟩ | ⟨m0, rest, he, h⟩ | ⟨e, rest, he, h⟩ := awaitRead_cases h
    · exact .waited (by simpa using h)
    · exact .readOk m0 rest ‹_› he (by simpa [mode1Read] using h.symm)
    · exact .readErr e rest ‹_› he (by simpa using h)
  · obtain ⟨_, h⟩ | ⟨rest, he, h⟩ | ⟨e, rest, he, h⟩ := awaitWrite_cases h
    · exact .waited (by simpa using h)
    · exact .wentOn rest .spWritePrescale (by simp [*]) he (by simpa [sleepWritten] using h.symm)
    · exact .writeErr e rest (by simp [*]) (by simp [*]) (by simp [*]) he (by simpa using h)
  · obtain ⟨_, h⟩ | ⟨rest, he, h⟩ | ⟨e, rest, he, h⟩ := awaitWrite_cases h
    · exact .waited (by simpa using h)
    · unfold prescaleWritten at h
      split at h
      · exact .toRestore rest ‹_› ‹_› he (by simpa using h.symm)
      · obtain ⟨m, p, hm, hv, ht⟩ := commitPrescale_next h
        exact .committedAsleep rest m p ‹_› ‹_› hm hv he ht
      · cases h
    · exact .writeErr e rest (by simp [*]) (by simp [*]) (by simp [*]) he (by simpa using h)
  · obtain ⟨_, h⟩ | ⟨rest, he, h⟩ | ⟨e, rest, he, h⟩ := awaitWrite_cases h
    · exact .waited (by simpa using h)
    · exact .wentOn rest .spSettle (by simp [*]) he (by simpa [restoreWritten] using h.symm)
    · exact .writeErr e rest (by simp [*]) (by simp [*]) (by simp [*]) he (by simpa using h)
  · obtain ⟨_, h⟩ | ⟨extra, rest, he, h⟩ := awaitDelay_cases h
    · exact .waited (by simpa using h)
    · exact .delayDone extra rest ‹_› he (by simpa [settled] using h.symm)
  · obtain ⟨_, h⟩ | ⟨rest, he, h⟩ | ⟨e, rest, he, h⟩ := awaitWrite_cases h
    · exact .waited (by simpa using h)
    · obtain ⟨m, p, hm, hv, ht⟩ := commitPrescale_next h
      exact .committedActive rest m p ‹_› hm hv he ht
    · exact .writeErr e rest (by simp [*]) (by simp [*]) (by simp [*]) he (by simpa using h)
  · obtain ⟨_, h⟩ | ⟨rest, he, h⟩ | ⟨e, rest, he, h⟩ := awaitWrite_cases h
    · exact .waited (by simpa using h)
    · exact .wentOn rest .scWriteOnH (by simp [*]) he (by simpa [onLWritten] using h.symm)
    · exact .writeErr e rest (by simp [*]) (by simp [*]) (by simp [*]) he (by simpa using h)
  · obtain ⟨_, h⟩ | ⟨rest, he, h⟩ | ⟨e, rest, he, h⟩ := awaitWrite_cases h
    · exact .waited (by simpa using h)
    · exact .wentOn rest .scWriteOffL (by simp [*]) he (by simpa [onHWritten] using h.symm)
    · exact .writeErr e rest (by simp [*]) (by simp [*]) (by simp [*]) he (by simpa using h)
  · obtain ⟨_, h⟩ | ⟨rest, he, h⟩ | ⟨e, rest, he, h⟩ := awaitWrite_cases h
    · exact .waited (by simpa using h)
    · exact .wentOn rest .scWriteOffH (by simp [*]) he (by simpa [offLWritten] using h.symm)
    · exact .writeErr e rest (by simp [*]) (by simp [*]) (by simp [*]) he (by simpa using h)
  · obtain ⟨_, h⟩ | ⟨rest, he, h⟩ | ⟨e, rest, he, h⟩ := awaitWrite_cases h
    · exact .waited (by simpa using h)
    · exact .channelDone rest ‹_› he (by simpa [offHWritten] using h.symm)
    · exact .writeErr e rest (by simp [*]) (by simp [*]) (by simp [*]) he (by simpa using h)

/-- What an idle step did, when it gave a next state. -/
inductive IdleOutcome (s t : State) : Prop
  | waited (h : t = s)
  | illegal (w : CommandWord) (rest : List CommandWord) (why : IllegalReason) (hc : s.env.commands = w :: rest)
      (hd : decode w = .illegal why) (ht : t = raiseError .illegalCommand (acceptCommand w rest s))
  | rejected (w : CommandWord) (rest : List CommandWord) (i : Instr) (k : ErrorKind)
      (hc : s.env.commands = w :: rest) (hd : decode w = .command i) (hk : ∀ e, k ≠ .busError e)
      (ht : t = raiseError k (acceptCommand w rest s))
  | constructed (w : CommandWord) (rest : List CommandWord) (b : Byte) (hc : s.env.commands = w :: rest)
      (hd : decode w = .command (.construct b)) (hb : addressLegal b = true)
      (ht : t = returnOk { acceptCommand w rest s with dev := constructedDevice b })
  | prescaleStarted (w : CommandWord) (rest : List CommandWord) (f : Nat) (r : Bool)
      (hc : s.env.commands = w :: rest) (hd : decode w = .command (.setPrescaleFromFrequency f r))
      (hu : s.dev.devState ≠ .unbound) (hf : frequencyLegal s.cfg f = true)
      (ht : t = enterPhase .spReadMode1 (prescaleLatches r (prescaleByte f)) (acceptCommand w rest s))
  | channelStarted (w : CommandWord) (rest : List CommandWord) (n : Nat) (onH onL offH offL : Byte)
      (hc : s.env.commands = w :: rest) (hd : decode w = .command (.setChannel n onH onL offH offL))
      (hu : s.dev.devState ≠ .unbound) (hn : channelLegal n = true) (hon : tickHighLegal onH = true)
      (hoff : tickHighLegal offH = true)
      (ht : t = enterPhase .scWriteOnL (channelLatches (channelBase n) onH onL offH offL) (acceptCommand w rest s))

/-- The inversion of `idleStep`. -/
theorem idleStep_outcome {s t : State} (hp : s.phase = .idle) (h : idleStep s = .next t) : IdleOutcome s t := by
  obtain ⟨_, h⟩ | ⟨w, rest, i, hc, hd, h⟩ | ⟨w, rest, why, hc, hd, h⟩ := idleStep_cases h
  · exact .waited (by simpa using h)
  · have hp' : (acceptCommand w rest s).phase = .idle := hp
    cases i with
    | construct b =>
      obtain ⟨h', _⟩ | ⟨_, hl, h⟩ | ⟨_, hl, h⟩ := execConstruct_cases h
      · exact absurd hp' h'
      · exact .constructed w rest b hc hd hl h
      · exact .rejected w rest _ _ hc hd (by simp) h
    | setPrescaleFromFrequency f r =>
      obtain ⟨h', _⟩ | ⟨_, hl, h⟩ | ⟨_, _, hl, h⟩ | ⟨_, hu, hl, _, h⟩ := execSetPrescale_cases h
      · exact absurd hp' h'
      · exact .rejected w rest _ _ hc hd (by simp) h
      · exact .rejected w rest _ _ hc hd (by simp) h
      · exact .prescaleStarted w rest f r hc hd hu hl h
    | setChannel n a b c d =>
      obtain ⟨h', _⟩ | ⟨_, hl, h⟩ | ⟨_, _, hl, h⟩ | ⟨_, _, _, hl, h⟩ | ⟨_, hu, h1, h2, h3, h⟩ :=
        execSetChannel_cases h
      · exact absurd hp' h'
      · exact .rejected w rest _ _ hc hd (by simp) h
      · exact .rejected w rest _ _ hc hd (by simp) h
      · exact .rejected w rest _ _ hc hd (by simp) h
      · exact .channelStarted w rest _ _ _ _ _ hc hd hu h1 h2 h3 h
  · exact .illegal w rest why hc hd (by simpa [illegalCommand] using h)

/-- What a step that gives a next state did. -/
theorem step_cases {s t : State} (h : step s = .next t) :
    (resetAsserted s = true ∧ t = hardwareReset s) ∨
    (resetAsserted s = false ∧ s.phase = .idle ∧ idleStep (countReset s) = .next t) ∨
    (resetAsserted s = false ∧ s.phase ≠ .idle ∧ s.requested = false ∧
      ∃ q, phaseRequest (countReset s) = some q ∧ t = issue q (countReset s)) ∨
    (resetAsserted s = false ∧ s.phase ≠ .idle ∧ s.requested = true ∧ completePhase (countReset s) = .next t) := by
  cases hr : resetAsserted s
  · right
    by_cases hp : s.phase = .idle
    · exact .inl ⟨rfl, hp, by rw [← step_idle hr hp]; exact h⟩
    · right
      cases hq : s.requested
      · exact .inl ⟨rfl, hp, rfl, issuePhase_next (by rw [← step_issue hr hp hq]; exact h)⟩
      · exact .inr ⟨rfl, hp, rfl, by rw [← step_complete hr hp hq]; exact h⟩
  · exact .inl ⟨rfl, by simpa [step_reset hr] using h.symm⟩

/-- Running no step. -/
theorem runSteps_zero (s : State) : runSteps 0 s = .next s := rfl

/-- Running one step more, where the first gives a next state. -/
theorem runSteps_succ {n : Nat} {s t : State} (h : step s = .next t) : runSteps (n + 1) s = runSteps n t := by
  rw [runSteps, h]

/-- `runSteps` is the host's run of the machine. -/
theorem runSteps_eq_core_run (n : Nat) (s : State) : runSteps n s = Sys2Proof.core.run n s := by
  induction n generalizing s with
  | zero => rfl
  | succ n ih =>
    have e := Host.Core.run.eq_2 Sys2Proof.core s n
    cases h : step s with
    | next t =>
      have h' : Sys2Proof.core.step s = .next t := h
      rw [h'] at e
      exact (runSteps_succ h).trans ((ih t).trans e.symm)
    | fault r =>
      have h' : Sys2Proof.core.step s = .fault r := h
      rw [h'] at e
      rw [runSteps, h]
      exact e.symm
    | refused r =>
      have h' : Sys2Proof.core.step s = .refused r := h
      rw [h'] at e
      rw [runSteps, h]
      exact e.symm

/-- The commands' accepting steps, seen through `exec`. -/
theorem exec_construct (a : Byte) (s : State) : exec (.construct a) s = execConstruct a s := rfl

theorem exec_setPrescale (f : Nat) (r : Bool) (s : State) :
    exec (.setPrescaleFromFrequency f r) s = execSetPrescaleFromFrequency f r s := rfl

theorem exec_setChannel (n : Nat) (onH onL offH offL : Byte) (s : State) :
    exec (.setChannel n onH onL offH offL) s = execSetChannel n onH onL offH offL s := rfl

end Sys2Proof.Machine
end

