-- ==== Sys2Proof/Laws/Safety.lean ====
section
/-! SUPPORT. The small lemmas of the safety definitions: the latches of each phase, the invariant's immediate
consequences, the dialogue and the command traces event by event. -/

namespace Sys2Proof.Machine

/-! ### LatchesOk, phase by phase -/

@[simp] theorem latchesOk_idle (l : Latches) : LatchesOk .idle l ↔ l = Latches.empty := Iff.rfl

@[simp] theorem latchesOk_spReadMode1 (l : Latches) :
    LatchesOk .spReadMode1 l ↔ ∃ r p, prescaleLegal p = true ∧ l = prescaleLatches r p := Iff.rfl

@[simp] theorem latchesOk_spWriteSleep (l : Latches) :
    LatchesOk .spWriteSleep l ↔ ∃ r p m0, prescaleLegal p = true ∧ l = latchMode1 m0 (prescaleLatches r p) := Iff.rfl

@[simp] theorem latchesOk_spWritePrescale (l : Latches) :
    LatchesOk .spWritePrescale l ↔ ∃ r p m0, prescaleLegal p = true ∧ l = latchMode1 m0 (prescaleLatches r p) := Iff.rfl

@[simp] theorem latchesOk_spWriteRestore (l : Latches) :
    LatchesOk .spWriteRestore l ↔ ∃ p m0, prescaleLegal p = true ∧ l = latchMode1 m0 (prescaleLatches true p) := Iff.rfl

@[simp] theorem latchesOk_spSettle (l : Latches) :
    LatchesOk .spSettle l ↔ ∃ p m0, prescaleLegal p = true ∧ l = latchMode1 m0 (prescaleLatches true p) := Iff.rfl

@[simp] theorem latchesOk_spWriteRestart (l : Latches) :
    LatchesOk .spWriteRestart l ↔ ∃ p m0, prescaleLegal p = true ∧ l = latchMode1 m0 (prescaleLatches true p) := Iff.rfl

/-- The four channel phases have the same latches. -/
theorem latchesOk_channel {ph : Phase} (h : ph ∈ [Phase.scWriteOnL, .scWriteOnH, .scWriteOffL, .scWriteOffH])
    (l : Latches) :
    LatchesOk ph l ↔ ∃ n onH onL offH offL, channelLegal n = true ∧ tickHighLegal onH = true ∧
      tickHighLegal offH = true ∧ l = channelLatches (channelBase n) onH onL offH offL := by
  simp only [List.mem_cons, List.not_mem_nil, or_false] at h
  obtain rfl | rfl | rfl | rfl := h <;> exact Iff.rfl

/-! ### Consequences of the invariant -/

/-- A bound Device has an address (R13, R18). -/
theorem Device.Ok.address_of_bound {d : Device} (h : d.Ok) (hb : d.devState ≠ .unbound) :
    ∃ a, d.address = some a := by
  obtain ⟨_, h2, h3, h4, _, _⟩ := h
  cases hd : d.devState with
  | unbound => exact absurd hd hb
  | unconfigured => exact Option.isSome_iff_exists.1 (h2 hd).1
  | sleeping => exact Option.isSome_iff_exists.1 (h3 hd).1
  | active => exact Option.isSome_iff_exists.1 (h4 hd).1

/-- A command in flight has a Device address to send to. -/
theorem Inv.address_in_flight {s : State} (h : Inv s) (hp : s.phase ≠ .idle) : ∃ a, s.dev.address = some a :=
  h.deviceOk.address_of_bound (h.boundInFlight hp)

/-- The latches of a known phase. -/
theorem Inv.latches_at {s : State} (h : Inv s) {ph : Phase} (hp : s.phase = ph) : LatchesOk ph s.lat :=
  hp ▸ h.latchesOk

/-- Counting towards the next reset keeps the invariant. -/
theorem Inv.countReset {s : State} (h : Inv s) : Inv (countReset s) :=
  ⟨by simpa using h.cfgLegal, by simpa using h.deviceOk, by simpa using h.boundInFlight,
   by simpa using h.latchesOk, by simpa using h.idleQuiet⟩

/-- Whatever ends a command leaves the invariant, if the record is one R18 allows. -/
theorem Inv.of_endCommand {s : State} (r : Response) (hc : s.cfg.Legal) (hd : s.dev.Ok) : Inv (endCommand r s) :=
  ⟨hc, hd, fun h => absurd rfl h, rfl, fun _ => rfl⟩

/-- Every prescale byte the block computes is legal (R84, R85). -/
theorem prescaleByte_legal (f : Nat) : prescaleLegal (prescaleByte f) = true := by
  have := prescaleByte_toNat f
  rw [prescaleLegal_iff]
  omega

/-- `S` is a byte the record may hold in `Sleeping` (R18). -/
theorem sleepByte_asleep (m0 : Byte) : asleepByte (sleepByte m0) = true := by revert m0; decide

/-- `RS` is a byte the record may hold in `Active` (R18). -/
theorem restartByte_awake (m0 : Byte) : awakeByte (restartByte (restoreByte m0)) = true := by revert m0; decide

/-! ### The dialogue, event by event -/

theorem dialogueOf_append (t : List Event) (e : Event) : dialogueOf (t ++ [e]) = dialogue (dialogueOf t) e := by
  simp [dialogueOf]

theorem dialogueOf_append_two (t : List Event) (e e' : Event) :
    dialogueOf (t ++ [e, e']) = dialogue (dialogue (dialogueOf t) e) e' := by
  simp [dialogueOf]

@[simp] theorem dialogue_accepted (w : CommandWord) : dialogue (some false) (.accepted w) = some true := rfl
@[simp] theorem dialogue_request (q : Request) : dialogue (some true) (.request q) = some true := rfl
@[simp] theorem dialogue_readReply (r : ReadReply) : dialogue (some true) (.readReply r) = some true := rfl
@[simp] theorem dialogue_writeReply (r : WriteReply) : dialogue (some true) (.writeReply r) = some true := rfl
@[simp] theorem dialogue_delayDone (us : Nat) : dialogue (some true) (.delayDone us) = some true := rfl
@[simp] theorem dialogue_response (r : Response) : dialogue (some true) (.response r) = some false := rfl
@[simp] theorem dialogue_hardwareReset (b : Bool) : dialogue (some b) .hardwareReset = some false := by cases b <;> rfl

end Sys2Proof.Machine
end

