-- ==== Sys2Proof/Tests/Slice0.lean ====
section
/-! SUPPORT. Small checks against the spec's own words and test vectors, and, for every statement with hypotheses, a
state and operands that meet them. -/

namespace Sys2Proof.Tests

open Sys2Proof Sys2Proof.Machine

/-! ## Small states -/

/-- The state a step gave, if it gave one. -/
def nextOf : Result → Option State
  | .next t => some t
  | .fault _ => none
  | .refused _ => none

/-- What a step added to the trace. -/
def added (s : State) (r : Result) : Option (List Event) := (nextOf r).map fun t => t.trace.drop s.trace.length

/-- Every answer `ok`: the read gives `m0`, and the timer adds nothing. -/
def okEnv (m0 : Byte) : Env :=
  { Env.quiet with readReplies := [.ok m0], writeReplies := [.ok, .ok, .ok, .ok], timerSlack := [0] }

/-- Bound to 0x40, `Unconfigured`, idle: the start state of the spec's vectors (95_test_vectors.md sections 2, 4.3, 5). -/
def bound (e : Env) : State := { State.reset with dev := constructedDevice 0x40#8, env := e }

/-- `Active, 0x40, 0xA1, 0x79`, idle: the end of vector SP1. -/
def active (e : Env) : State :=
  { State.reset with
    dev := { devState := .active, address := some 0x40#7, mode1Cache := some 0xA1#8, mode2Cache := none,
             prescaleCache := some 0x79#8 }
    env := e }

/-- A command in flight on a block bound to 0x40, in phase `ph`, with the trace it must have there. -/
def inFlight (w : CommandWord) (i : Instr) (m0 : Byte) (ph : Phase) (open' : Bool) (e : Env) : State :=
  { bound e with
    phase := ph
    lat := flightLatches m0 ph i
    requested := open'
    trace := [.accepted w] ++ (commandTrace 0x40#8 500 500 m0 i).take (eventsBefore ph + if open' then 1 else 0) }

/-- `SetPrescaleFromFrequency(50, true)` in flight, MODE1 read as 0x21 (vector SP1). -/
def sp (ph : Phase) (open' : Bool) (e : Env) : State :=
  inFlight 0x020100000032#48 (.setPrescaleFromFrequency 50 true) 0x21#8 ph open' e

/-- `SetChannel(7, (0x02,0x34), (0x0A,0xBC))` in flight (vector SC3). -/
def sc (ph : Phase) (open' : Bool) (e : Env) : State :=
  inFlight 0x030702340ABC#48 (.setChannel 7 0x02#8 0x34#8 0x0A#8 0xBC#8) 0x21#8 ph open' e

/-! ## Well-formedness: the smoke test -/

/-- R52: the frequency field has 16 bits. -/
theorem test_wellFormed_refuses_frequency_65536 :
    (Instr.setPrescaleFromFrequency 65536 true).wellFormed = false := by decide

/-- R53: the channel field has 8 bits. -/
theorem test_wellFormed_refuses_channel_256 : (Instr.setChannel 256 0 0 0 0).wellFormed = false := by decide

theorem test_wellFormed_accepts_largest :
    (Instr.construct 0xFF#8).wellFormed = true ∧ (Instr.setPrescaleFromFrequency 65535 false).wellFormed = true ∧
    (Instr.setChannel 255 0xFF#8 0xFF#8 0xFF#8 0xFF#8).wellFormed = true := by decide

/-! ## Decoding words written out from R51 to R53 -/

/-- R71: `Construct(0x40)`. -/
theorem test_decode_construct : decode 0x010000000040#48 = .command (.construct 0x40#8) := by decide

/-- Section 2, field extraction check: 0x05F6 is 1526. -/
theorem test_decode_setPrescale :
    decode 0x0201000005F6#48 = .command (.setPrescaleFromFrequency 1526 true) := by decide

/-- Vector DE16: bit 15 belongs to the frequency. -/
theorem test_decode_setPrescale_bit15 :
    decode 0x020000008032#48 = .command (.setPrescaleFromFrequency 32818 false) := by decide

/-- Section 2, field extraction check. -/
theorem test_decode_setChannel :
    decode 0x030702340ABC#48 = .command (.setChannel 7 0x02#8 0x34#8 0x0A#8 0xBC#8) := by decide

/-- Vector DE17. -/
theorem test_decode_setChannel_all_ones :
    decode 0x03FFFFFFFFFF#48 = .command (.setChannel 255 0xFF#8 0xFF#8 0xFF#8 0xFF#8) := by decide

/-- Vectors DE1 to DE7 and DE11 to DE14. -/
theorem test_decode_illegal :
    decode 0x000000000000#48 = .illegal .unknownOpcode ∧ decode 0x040000000000#48 = .illegal .unknownOpcode ∧
    decode 0xFF0000000000#48 = .illegal .unknownOpcode ∧ decode 0xFFFFFFFFFFFF#48 = .illegal .unknownOpcode ∧
    decode 0x010000000140#48 = .illegal .constructReservedBits ∧
    decode 0x010100000040#48 = .illegal .constructReservedBits ∧
    decode 0x018000000040#48 = .illegal .constructReservedBits ∧
    decode 0x020200000032#48 = .illegal .prescaleReservedBits ∧
    decode 0x020100010032#48 = .illegal .prescaleReservedBits ∧
    decode 0x028000000032#48 = .illegal .prescaleReservedBits ∧
    decode 0x02FF00000032#48 = .illegal .prescaleReservedBits := by decide

/-- R71, R81, R111: the spec's own encodings. -/
theorem test_encode :
    encode (.construct 0x40#8) = 0x010000000040#48 ∧
    encode (.setPrescaleFromFrequency 50 true) = 0x020100000032#48 ∧
    encode (.setPrescaleFromFrequency 50 false) = 0x020000000032#48 ∧
    encode (.setChannel 0 0x00#8 0x00#8 0x01#8 0x97#8) = 0x030000000197#48 := by decide

/-- The opcode table's numbering is the word's own; bits above `nbits` are 0. -/
theorem test_decodeTableWord :
    decodeTableWord 48 0x010000000040 = some (.construct 0x40#8) ∧
    decodeTableWord 48 0x000000000000 = none ∧ decodeTableWord 8 0x01 = none := by decide

/-! ## CONSTRUCT -/

/-- Vector CO6: a new address, the caches dropped. -/
theorem test_construct_rebinds :
    (nextOf (exec (.construct 0x41#8) (active Env.quiet))).map (·.dev) =
      some { devState := .unconfigured, address := some 0x41#7, mode1Cache := none, mode2Cache := none,
             prescaleCache := none } := by decide

/-- Vector CO8: a bad address changes nothing. -/
theorem test_construct_bad_address :
    (nextOf (exec (.construct 0x80#8) (active Env.quiet))).map (·.dev) = some (active Env.quiet).dev ∧
    added (active Env.quiet) (exec (.construct 0x80#8) (active Env.quiet)) =
      some [.response (.error .configError)] := by decide

/-! ## SET_PRESCALE_FROM_FREQUENCY -/

/-- R95: an accepted command issues nothing in its accepting step and reads MODE1 next (P of row 50: 0x79). -/
theorem test_setPrescale_accepted :
    (nextOf (exec (.setPrescaleFromFrequency 50 true) (bound Env.quiet))).map (fun t => (t.phase, t.lat.p, t.trace)) =
      some (.spReadMode1, some 0x79#8, []) := by decide

/-- Vector SP6: the bound check comes first. -/
theorem test_setPrescale_unbound :
    added State.reset (exec (.setPrescaleFromFrequency 23 true) State.reset) =
      some [.response (.error .configError)] := by decide

/-- Section 4.2, rows 0x91 and 0x6F: `S`, `RV`, `RS`. -/
theorem test_mode1_bytes :
    (sleepByte 0x91#8, restoreByte 0x91#8, restartByte (restoreByte 0x91#8)) = (0x11#8, 0x81#8, 0x81#8) ∧
    (sleepByte 0x6F#8, restoreByte 0x6F#8, restartByte (restoreByte 0x6F#8)) = (0x7F#8, 0x6F#8, 0xEF#8) := by decide

/-- Section 4.1, last paragraph: outside the default limits the clamp works on integers and does not wrap. -/
theorem test_prescale_clamp :
    prescaleByte 23 = 0xFF#8 ∧ prescaleByte 1744 = 0x03#8 ∧ prescaleByte 12208 = 0x03#8 := by decide

/-- Vector SP1, second transaction: `BusWrite(0x40, 0x00, 0x31)`. -/
theorem test_sleep_write_request :
    added (sp .spWriteSleep false Env.quiet) (step (sp .spWriteSleep false Env.quiet)) =
      some [.request (.write 0x40#8 0x00#8 0x31#8)] := by decide

/-- Vector SP1, the end: `Active, 0x40, 0xA1, 0x79`. -/
theorem test_restart_write_commits :
    (nextOf (step (sp .spWriteRestart true (okEnv 0x21#8)))).map (fun t => (t.dev, t.phase)) =
      some ((active Env.quiet).dev, .idle) := by decide

/-- Vector SPF5: the restart write fails; nothing is committed, and the response word is 0xE505. -/
theorem test_restart_write_fails :
    (nextOf (step (sp .spWriteRestart true { Env.quiet with writeReplies := [.err 0xE5#8] }))).map (·.dev) =
      some (constructedDevice 0x40#8) ∧
    responseWord (.error (.busError 0xE5#8)) = 0xE505#16 := by decide

/-- R33, R56 (log entry 2): on a transport with 4-bit error values, 0x5 arrives as it is and the word is 0x0505; a value
wider than the transport has loses its upper bits. -/
theorem test_error_width_4 :
    (sp .spWriteRestart true { Env.quiet with writeReplies := [.err 0x5#8] }).cfg.ErrorFits 0x5#8 ∧
    errorLines { Config.standard with busErrW := 4 } 0x5#8 = 0x5#8 ∧
    responseWord (.error (.busError 0x5#8)) = 0x0505#16 ∧
    errorLines { Config.standard with busErrW := 4 } 0xE5#8 = 0x5#8 := by decide

/-! ## SET_CHANNEL -/

/-- Vector SC15: the channel is checked before the ticks. -/
theorem test_setChannel_bad_channel_and_tick :
    added (bound Env.quiet) (exec (.setChannel 16 0xFF#8 0x00#8 0xFF#8 0x00#8) (bound Env.quiet)) =
      some [.response (.error .invalidChannel)] := by decide

/-- Vector SC10: an off tick of 4096. -/
theorem test_setChannel_tick_4096 :
    added (bound Env.quiet) (exec (.setChannel 0 0x00#8 0x00#8 0x10#8 0x00#8) (bound Env.quiet)) =
      some [.response (.error .invalidTick)] := by decide

/-- Vector SC3: its four writes, each from its own phase. -/
theorem test_setChannel_requests :
    added (sc .scWriteOnL false Env.quiet) (step (sc .scWriteOnL false Env.quiet)) =
      some [.request (.write 0x40#8 0x22#8 0x34#8)] ∧
    added (sc .scWriteOnH false Env.quiet) (step (sc .scWriteOnH false Env.quiet)) =
      some [.request (.write 0x40#8 0x23#8 0x02#8)] ∧
    added (sc .scWriteOffL false Env.quiet) (step (sc .scWriteOffL false Env.quiet)) =
      some [.request (.write 0x40#8 0x24#8 0xBC#8)] ∧
    added (sc .scWriteOffH false Env.quiet) (step (sc .scWriteOffH false Env.quiet)) =
      some [.request (.write 0x40#8 0x25#8 0x0A#8)] := by decide

/-- Vector SCF3: the third write fails, the command ends, the response word is 0xE305. -/
theorem test_setChannel_third_write_fails :
    added (sc .scWriteOffL true Env.quiet)
        (step (sc .scWriteOffL true { Env.quiet with writeReplies := [.err 0xE3#8] })) =
      some [.writeReply (.err 0xE3#8), .response (.error (.busError 0xE3#8))] ∧
    responseWord (.error (.busError 0xE3#8)) = 0xE305#16 := by decide

/-! ## The first step after reset -/

/-- R46, log entry 3: the word placed by `withFetchWord` is accepted by the very next step (vector CO1). -/
theorem test_first_step_construct :
    (nextOf (step (State.reset.withFetchWord 48 0x010000000040))).map (fun t => (t.dev, t.trace)) =
      some (constructedDevice 0x40#8, [.accepted 0x010000000040#48, .response .ok]) := by decide

/-- R137: an illegal word, right after reset (vector DE1). -/
theorem test_first_step_illegal :
    (nextOf (step (State.reset.withFetchWord 48 0))).map (fun t => (t.dev, t.trace)) =
      some (Device.unbound, [.accepted 0#48, .response (.error .illegalCommand)]) := by decide

/-! ## Witnesses: the hypotheses of each statement can be met

Each theorem names the statement it is for.  Where a statement has several clauses there is one conjunct for each, at a
boundary of its range. -/

theorem inv_reset : Inv State.reset :=
  ⟨by decide, by decide, fun h => absurd rfl h, rfl, fun _ => rfl⟩

theorem inv_bound (e : Env) : Inv (bound e) :=
  ⟨by change Config.standard.Legal; decide, by change (constructedDevice 0x40#8).Ok; decide,
   fun h => absurd rfl h, rfl, fun _ => rfl⟩

theorem inv_active (e : Env) : Inv (active e) :=
  ⟨by change Config.standard.Legal; decide, by change (active Env.quiet).dev.Ok; decide,
   fun h => absurd rfl h, rfl, fun _ => rfl⟩

/-- The prescale command in flight meets the invariant in each of its six phases. -/
theorem inv_sp {ph : Phase} (h : usesPhase (.setPrescaleFromFrequency 50 true) ph = true) (b : Bool) (e : Env) :
    Inv (sp ph b e) := by
  refine ⟨by change Config.standard.Legal; decide, by change (constructedDevice 0x40#8).Ok; decide,
    fun _ => (by decide : DevState.unconfigured ≠ .unbound), ?_, ?_⟩
  · cases ph <;> first
      | exact absurd h (by decide)
      | exact ⟨true, prescaleByte 50, prescaleByte_legal 50, rfl⟩
      | exact ⟨true, prescaleByte 50, 0x21#8, prescaleByte_legal 50, rfl⟩
      | exact ⟨prescaleByte 50, 0x21#8, prescaleByte_legal 50, rfl⟩
  · intro hp
    have hp : ph = .idle := hp
    subst hp
    exact absurd h (by decide)

/-- The channel command in flight meets the invariant in each of its four phases. -/
theorem inv_sc {ph : Phase} (h : usesPhase (.setChannel 7 0x02#8 0x34#8 0x0A#8 0xBC#8) ph = true) (b : Bool)
    (e : Env) : Inv (sc ph b e) := by
  refine ⟨by change Config.standard.Legal; decide, by change (constructedDevice 0x40#8).Ok; decide,
    fun _ => (by decide : DevState.unconfigured ≠ .unbound), ?_, ?_⟩
  · cases ph <;> first
      | exact absurd h (by decide)
      | exact ⟨7, 0x02#8, 0x34#8, 0x0A#8, 0xBC#8, by decide, by decide, by decide, rfl⟩
  · intro hp
    have hp : ph = .idle := hp
    subst hp
    exact absurd h (by decide)

/-- The prescale command in flight has the trace it must have. -/
theorem flightTrace_sp {ph : Phase} (h : usesPhase (.setPrescaleFromFrequency 50 true) ph = true) (b : Bool) (e : Env) :
    FlightTrace (sp ph b e) := fun _ =>
  ⟨[], 0x020100000032#48, .setPrescaleFromFrequency 50 true, 0x40#7, 0x21#8, 500, by decide, h,
   (by decide : operandsLegal Config.standard (.setPrescaleFromFrequency 50 true) = true), rfl,
   (by decide : 500 ≤ 500), rfl, rfl⟩

theorem witness_HardwareResetInAnyPhase :
    (sp .spSettle true { Env.quiet with resets := [0, 3] }).env.resets = 0 :: [3] := rfl

theorem witness_DecodeOfEncode :
    (Instr.construct 0xFF#8).WellFormed ∧ (Instr.setPrescaleFromFrequency 65535 true).WellFormed ∧
    (Instr.setChannel 255 0xFF#8 0xFF#8 0xFF#8 0xFF#8).WellFormed := by decide

theorem witness_EncodeOfDecode :
    decode 0x02010000FFFF#48 = .command (.setPrescaleFromFrequency 65535 true) := by decide

/-- Both sides of `IllegalWordsExactly` occur, each disjunct at a single reserved bit. -/
theorem witness_IllegalWordsExactly :
    decode 0x000000000000#48 = .illegal .unknownOpcode ∧ decode 0x010000000100#48 = .illegal .constructReservedBits ∧
    decode 0x028000000000#48 = .illegal .prescaleReservedBits ∧
    decode 0x020000010000#48 = .illegal .prescaleReservedBits ∧
    decode 0x030000000000#48 = .command (.setChannel 0 0 0 0 0) := by decide

theorem witness_ResponseWordFields : ∀ e, Response.ok ≠ .error (.busError e) := by simp

theorem witness_StepRunsDecodedCommand :
    (resetAsserted (bound { Env.quiet with commands := [0x010000000040#48] }) = false ∧
      (bound { Env.quiet with commands := [0x010000000040#48] }).phase = .idle ∧
      decode 0x010000000040#48 = .command (.construct 0x40#8)) ∧
    decodeTableWord 48 0x030000000197 = some (.setChannel 0 0x00#8 0x00#8 0x01#8 0x97#8) := by decide

theorem witness_IllegalWordAnswered :
    resetAsserted (bound { Env.quiet with commands := [0x000000000000#48] }) = false ∧
    (bound { Env.quiet with commands := [0x000000000000#48] }).phase = .idle ∧
    decode 0x000000000000#48 = .illegal .unknownOpcode := by decide

/-- One state for each of the four ways to wait. -/
theorem witness_WaitingChangesNothing :
    (resetAsserted State.reset = false ∧ State.reset.phase = .idle ∧ State.reset.env.commands = []) ∧
    ((sp .spReadMode1 true Env.quiet).requested = true ∧ (sp .spReadMode1 true Env.quiet).env.readReplies = []) ∧
    ((sp .spSettle true Env.quiet).requested = true ∧ (sp .spSettle true Env.quiet).env.timerSlack = []) ∧
    ((sc .scWriteOnL true Env.quiet).requested = true ∧ (sc .scWriteOnL true Env.quiet).env.writeReplies = []) := by
  decide

theorem witness_BusyPortTakesNothing :
    (sc .scWriteOnL false { Env.quiet with commands := [0#48] }).phase ≠ .idle ∧
    ∃ t, step (sc .scWriteOnL false { Env.quiet with commands := [0#48] }) = .next t := ⟨by decide, _, rfl⟩

theorem witness_ConstructEffect :
    (sp .spSettle true Env.quiet).phase ≠ .idle ∧
    (bound Env.quiet).phase = .idle ∧ (0x7F#8).toNat ≤ 0x7F ∧ 0x7F < (0x80#8).toNat := by decide

theorem witness_UnboundSetIsConfigError :
    State.reset.phase = .idle ∧ State.reset.dev.devState = .unbound := by decide

theorem witness_FrequencyOutsideLimits :
    (bound Env.quiet).phase = .idle ∧ (bound Env.quiet).dev.devState ≠ .unbound ∧
    23 < (bound Env.quiet).cfg.freqMinHz ∧ (bound Env.quiet).cfg.freqMaxHz < 1527 := by decide

theorem witness_FrequencyAccepted :
    (bound Env.quiet).cfg.Legal ∧ (bound Env.quiet).phase = .idle ∧ (bound Env.quiet).dev.devState ≠ .unbound ∧
    (bound Env.quiet).cfg.freqMinHz ≤ 24 ∧ 1526 ≤ (bound Env.quiet).cfg.freqMaxHz := by decide

theorem witness_PrescaleRoundsToNearest : 1 ≤ 1 ∧ 1 ≤ 65535 ∧ 65535 ≤ 65535 := by decide

theorem witness_PrescaleRangeAndOrder :
    1 ≤ 1 ∧ (1 ≤ 1 ∧ 1 ≤ 65535) ∧ (24 ≤ 24 ∧ 24 ≤ 1526) ∧ (24 ≤ 1526 ∧ 1526 ≤ 1526) := by decide

theorem witness_Mode1WritesByBit : 0 < 8 ∧ 0 ≠ 7 ∧ 0 ≠ 4 := by decide

/-- The read not yet issued, answered `ok`, answered `err`. -/
theorem witness_ReadMode1Phase :
    Inv (sp .spReadMode1 false Env.quiet) ∧ Inv (sp .spReadMode1 true (okEnv 0xFF#8)) ∧
    Inv (sp .spReadMode1 true { Env.quiet with readReplies := [.err 0xE1#8] }) ∧
    (sp .spReadMode1 true { Env.quiet with readReplies := [.err 0xE1#8] }).cfg.ErrorFits 0xE1#8 ∧
    resetAsserted (sp .spReadMode1 true (okEnv 0xFF#8)) = false ∧
    (sp .spReadMode1 true (okEnv 0xFF#8)).env.readReplies = [.ok 0xFF#8] :=
  ⟨inv_sp rfl _ _, inv_sp rfl _ _, inv_sp rfl _ _, by decide, rfl, rfl⟩

/-- The four cases of `PerformsWrite`: not issued, unanswered, `ok`, `err`. -/
theorem witness_SleepWritePhase :
    Inv (sp .spWriteSleep false Env.quiet) ∧ Inv (sp .spWriteSleep true Env.quiet) ∧
    Inv (sp .spWriteSleep true (okEnv 0#8)) ∧
    Inv (sp .spWriteSleep true { Env.quiet with writeReplies := [.err 0xE2#8] }) ∧
    (sp .spWriteSleep true { Env.quiet with writeReplies := [.err 0xE2#8] }).cfg.ErrorFits 0xE2#8 ∧
    resetAsserted (sp .spWriteSleep true (okEnv 0#8)) = false ∧
    (sp .spWriteSleep true (okEnv 0#8)).env.writeReplies = .ok :: [.ok, .ok, .ok] :=
  ⟨inv_sp rfl _ _, inv_sp rfl _ _, inv_sp rfl _ _, inv_sp rfl _ _, by decide, rfl, rfl⟩

/-- With a restart asked for, and without. -/
theorem witness_PrescaleWritePhase :
    Inv (sp .spWritePrescale true (okEnv 0#8)) ∧
    (Inv (inFlight 0x020000000032#48 (.setPrescaleFromFrequency 50 false) 0x21#8 .spWritePrescale true (okEnv 0#8))) ∧
    resetAsserted (sp .spWritePrescale true (okEnv 0#8)) = false :=
  ⟨inv_sp rfl _ _,
   ⟨by change Config.standard.Legal; decide, by change (constructedDevice 0x40#8).Ok; decide,
    fun _ => (by decide : DevState.unconfigured ≠ .unbound), ⟨false, prescaleByte 50, 0x21#8, prescaleByte_legal 50, rfl⟩,
    fun h => absurd h (by decide)⟩, rfl⟩

theorem witness_RestoreWritePhase :
    Inv (sp .spWriteRestore false Env.quiet) ∧ Inv (sp .spWriteRestore true (okEnv 0#8)) ∧
    resetAsserted (sp .spWriteRestore true (okEnv 0#8)) = false :=
  ⟨inv_sp rfl _ _, inv_sp rfl _ _, rfl⟩

theorem witness_SettlePhase :
    (sp .spSettle false Env.quiet).phase = .spSettle ∧ (sp .spSettle false Env.quiet).requested = false ∧
    resetAsserted (sp .spSettle true (okEnv 0#8)) = false ∧
    (sp .spSettle true (okEnv 0#8)).env.timerSlack = 0 :: [] := by decide

theorem witness_RestartWritePhase :
    Inv (sp .spWriteRestart false Env.quiet) ∧ Inv (sp .spWriteRestart true (okEnv 0#8)) ∧
    resetAsserted (sp .spWriteRestart true (okEnv 0#8)) = false :=
  ⟨inv_sp rfl _ _, inv_sp rfl _ _, rfl⟩

theorem witness_SetPrescaleSuccess :
    (bound (okEnv 0x91#8)).cfg.Legal ∧ (bound (okEnv 0x91#8)).phase = .idle ∧
    (bound (okEnv 0x91#8)).dev.devState ≠ .unbound ∧ (bound (okEnv 0x91#8)).dev.address = some 0x40#7 ∧
    (bound (okEnv 0x91#8)).cfg.freqMinHz ≤ 24 ∧ 24 ≤ (bound (okEnv 0x91#8)).cfg.freqMaxHz ∧
    (bound (okEnv 0x91#8)).env.resets = [] ∧ (bound (okEnv 0x91#8)).env.readReplies = .ok 0x91#8 :: [] ∧
    (bound (okEnv 0x91#8)).env.timerSlack = 0 :: [] ∧
    (bound (okEnv 0x91#8)).env.writeReplies = .ok :: .ok :: .ok :: .ok :: [] ∧
    (bound (okEnv 0x91#8)).env.writeReplies = .ok :: .ok :: [.ok, .ok] := by decide

/-- The read fails; the first write, the write of index 1 and the last write, after the delay, fail. -/
theorem witness_SetPrescaleBusFailure :
    (bound Env.quiet).cfg.ErrorFits 0xFF#8 ∧
    (bound { okEnv 0#8 with writeReplies := [.err 0xE2#8] }).env.writeReplies =
      List.replicate 0 .ok ++ .err 0xE2#8 :: [] ∧
    (bound { Env.quiet with readReplies := [.err 0xE1#8] }).env.readReplies = .err 0xE1#8 :: [] ∧
    (bound { okEnv 0#8 with writeReplies := [.ok, .err 0xE3#8] }).env.writeReplies =
      List.replicate 1 .ok ++ .err 0xE3#8 :: [] ∧ 1 < 2 ∧
    (bound { okEnv 0#8 with writeReplies := [.ok, .ok, .ok, .err 0xE5#8] }).env.writeReplies =
      List.replicate 3 .ok ++ .err 0xE5#8 :: [] ∧ 3 < 4 ∧
    (bound { okEnv 0#8 with writeReplies := [.ok, .ok, .ok, .err 0xE5#8] }).env.timerSlack = 0 :: [] := by decide

theorem witness_ChannelOrTickOutOfRange :
    (bound Env.quiet).phase = .idle ∧ (bound Env.quiet).dev.devState ≠ .unbound ∧ 15 < 16 ∧ 15 ≤ 15 ∧
    0x0F < (0x10#8).toNat := by decide

theorem witness_ChannelAccepted :
    (active Env.quiet).phase = .idle ∧ (active Env.quiet).dev.devState ≠ .unbound ∧ 15 ≤ 15 ∧
    (0x0F#8).toNat ≤ 0x0F := by decide

theorem witness_ChannelWritePhases :
    Inv (sc .scWriteOnL true (okEnv 0#8)) ∧ Inv (sc .scWriteOnH true (okEnv 0#8)) ∧
    Inv (sc .scWriteOffL true (okEnv 0#8)) ∧ Inv (sc .scWriteOffH true (okEnv 0#8)) ∧
    resetAsserted (sc .scWriteOnL true (okEnv 0#8)) = false :=
  ⟨inv_sc rfl _ _, inv_sc rfl _ _, inv_sc rfl _ _, inv_sc rfl _ _, rfl⟩

/-- All four writes answered `ok`; and the fourth one failing. -/
theorem witness_SetChannelWrites :
    (bound (okEnv 0#8)).phase = .idle ∧ (bound (okEnv 0#8)).dev.devState ≠ .unbound ∧
    (bound (okEnv 0#8)).dev.address = some 0x40#7 ∧ 15 ≤ 15 ∧ (0x0F#8).toNat ≤ 0x0F ∧
    (bound (okEnv 0#8)).env.resets = [] ∧
    (bound (okEnv 0#8)).env.writeReplies = .ok :: .ok :: .ok :: .ok :: [] ∧ 3 < 4 ∧
    (bound (okEnv 0#8)).cfg.ErrorFits 0xE4#8 ∧
    (bound { Env.quiet with writeReplies := [.ok, .ok, .ok, .err 0xE4#8] }).env.writeReplies =
      List.replicate 3 .ok ++ .err 0xE4#8 :: [] := by decide

theorem witness_ChannelRegisters :
    15 ≤ 15 ∧ 3 ≤ 3 ∧ channelReg (channelBase 15) 3 = channelReg (channelBase 15) 3 := by decide

/-- R57: 4095 is the largest legal pair, 4096 the smallest illegal one. -/
theorem witness_TickPairs :
    tickHighLegal 0x0F#8 = true ∧ 256 * (0x0F#8).toNat + (0xFF#8).toNat ≤ 4095 ∧ 4095 ≤ 4095 := by decide

theorem witness_ChannelWordValue :
    (bound (okEnv 0#8)).phase = .idle ∧ (bound (okEnv 0#8)).dev.devState ≠ .unbound ∧
    (bound (okEnv 0#8)).dev.address = some 0x40#7 ∧ 15 ≤ 15 ∧ (0x0F#8).toNat ≤ 0x0F ∧
    (bound (okEnv 0#8)).env.resets = [] ∧
    (bound (okEnv 0#8)).env.writeReplies = .ok :: .ok :: .ok :: .ok :: [] := by decide

/-- Two states that differ in `dev_state` and caches, with the same address (vectors SC16, SC19). -/
theorem witness_SetChannelIdempotent :
    (bound (okEnv 0#8)).phase = .idle ∧ (active (okEnv 0#8)).phase = .idle ∧
    (bound (okEnv 0#8)).dev.devState ≠ .unbound ∧ (active (okEnv 0#8)).dev.devState ≠ .unbound ∧
    (bound (okEnv 0#8)).dev.address = some 0x40#7 ∧ (active (okEnv 0#8)).dev.address = some 0x40#7 ∧
    (bound (okEnv 0#8)).env.resets = [] ∧ (active (okEnv 0#8)).env.resets = [] ∧
    operandsLegal (bound (okEnv 0#8)).cfg (.setChannel 15 0x0F#8 0xFF#8 0x0F#8 0xFF#8) = true ∧
    (bound (okEnv 0#8)).env.writeReplies = .ok :: .ok :: .ok :: .ok :: [] ∧
    (active (okEnv 0#8)).env.writeReplies = .ok :: .ok :: .ok :: .ok :: [] := by decide

/-- The word of vector SC2 on the command port. -/
def offeredChannel : State := bound { Env.quiet with commands := [0x030F0FFF0FFF#48] }

/-- The accepting step through `exec`, the same as a step, and the fourth write issued. -/
theorem witness_SetChannelKeepsRecord :
    (∃ t, exec (.setChannel 15 0x0F#8 0xFF#8 0x0F#8 0xFF#8) (active Env.quiet) = .next t) ∧
    (resetAsserted offeredChannel = false ∧ offeredChannel.phase = .idle ∧
      offeredChannel.env.commands = 0x030F0FFF0FFF#48 :: [] ∧
      decode 0x030F0FFF0FFF#48 = .command (.setChannel 15 0x0F#8 0xFF#8 0x0F#8 0xFF#8) ∧
      ∃ t, step offeredChannel = .next t ∧ t.trace = offeredChannel.trace ++ [.accepted 0x030F0FFF0FFF#48]) ∧
    Inv (sc .scWriteOffH false Env.quiet) ∧
    ∃ t, step (sc .scWriteOffH false Env.quiet) = .next t ∧
      t.trace = (sc .scWriteOffH false Env.quiet).trace ++ [.request (.write 0x40#8 0x25#8 0x0A#8)] :=
  ⟨⟨_, rfl⟩, ⟨by decide, by decide, by decide, by decide, _, rfl, by decide⟩, inv_sc rfl _ _, _, rfl, by decide⟩

/-- A command whose word, channel 16, is rejected in the accepting step. -/
def badChannel : State := bound { Env.quiet with commands := [0x031000000000#48] }

theorem witness_ErrorReturnEffect :
    ∃ t, step badChannel = .next t ∧
      t.trace = badChannel.trace ++ [.accepted 0x031000000000#48] ++ [.response (.error .invalidChannel)] :=
  ⟨_, rfl, by decide⟩

theorem witness_ValidationErrorIssuesNothing :
    (∀ e, ErrorKind.invalidChannel ≠ .busError e) ∧ ∃ t, step badChannel = .next t ∧
      t.trace = badChannel.trace ++ [.accepted 0x031000000000#48] ++ [.response (.error .invalidChannel)] :=
  ⟨by simp, _, rfl, by decide⟩

/-- The read fails, and a write fails; each is then a step that returns `BusError`. -/
theorem witness_BusErrorVerbatim :
    (sp .spReadMode1 true Env.quiet).cfg.ErrorFits 0xFF#8 ∧
    ((sp .spReadMode1 true { Env.quiet with readReplies := [.err 0xE1#8] }).requested = true ∧
      (sp .spReadMode1 true { Env.quiet with readReplies := [.err 0xE1#8] }).env.readReplies = .err 0xE1#8 :: []) ∧
    ((sc .scWriteOnL true { Env.quiet with writeReplies := [.err 0xE2#8] }).requested = true ∧
      (sc .scWriteOnL true { Env.quiet with writeReplies := [.err 0xE2#8] }).env.writeReplies = .err 0xE2#8 :: []) ∧
    ∃ t, step (sc .scWriteOnL true { Env.quiet with writeReplies := [.err 0xE2#8] }) = .next t ∧
      t.trace = (sc .scWriteOnL true Env.quiet).trace ++ [.writeReply (.err 0xE2#8)] ++
        [.response (.error (.busError 0xE2#8))] :=
  ⟨by decide, by decide, by decide, _, rfl, by decide⟩

/-- `sc` on a transport with 4-bit error values. -/
def narrow (e : Env) : State :=
  { sc .scWriteOnL true e with cfg := { Config.standard with busErrW := 4 } }

/-- A value of the transport's width, and a wider one of which 0x5 arrives. -/
theorem witness_BusErrorWidth :
    (resetAsserted (narrow { Env.quiet with writeReplies := [.err 0xE5#8] }) = false ∧
      (narrow { Env.quiet with writeReplies := [.err 0xE5#8] }).requested = true ∧
      (narrow { Env.quiet with writeReplies := [.err 0xE5#8] }).phase = .scWriteOnL ∧
      (narrow { Env.quiet with writeReplies := [.err 0xE5#8] }).env.writeReplies = .err 0xE5#8 :: []) ∧
    ∃ t, step (narrow { Env.quiet with writeReplies := [.err 0xE5#8] }) = .next t ∧
      t.trace = (narrow Env.quiet).trace ++ [.writeReply (.err 0x5#8)] ++ [.response (.error (.busError 0x5#8))] :=
  ⟨by decide, _, rfl, by decide⟩

theorem witness_StepKeepsInvariant :
    Inv (sp .spWritePrescale true (okEnv 0#8)) ∧ ∃ t, step (sp .spWritePrescale true (okEnv 0#8)) = .next t :=
  ⟨inv_sp rfl _ _, _, rfl⟩

theorem witness_InvariantStepsGoOn : Inv State.reset ∧ Inv (sc .scWriteOffH true (okEnv 0#8)) :=
  ⟨inv_reset, inv_sc rfl _ _⟩

theorem witness_StepKeepsFlightTrace :
    Inv (sp .spSettle true (okEnv 0#8)) ∧ FlightTrace (sp .spSettle true (okEnv 0#8)) ∧
    (sp .spSettle true (okEnv 0#8)).phase ≠ .idle ∧ ∃ t, step (sp .spSettle true (okEnv 0#8)) = .next t :=
  ⟨inv_sp rfl _ _, flightTrace_sp rfl _ _, by decide, _, rfl⟩

/-- A command goes on; a reset cuts it off. -/
theorem witness_StepKeepsDialogue :
    (DialogueOk (sp .spSettle true (okEnv 0#8)) ∧ ∃ t, step (sp .spSettle true (okEnv 0#8)) = .next t) ∧
    DialogueOk (sp .spSettle true { Env.quiet with resets := [0] }) ∧
    ∃ t, step (sp .spSettle true { Env.quiet with resets := [0] }) = .next t ∧ t.phase = .idle :=
  ⟨⟨by decide, _, rfl⟩, by decide, _, rfl, rfl⟩

theorem witness_RequestsInFootprint :
    Inv (sp .spWritePrescale false Env.quiet) ∧ ∃ t, step (sp .spWritePrescale false Env.quiet) = .next t ∧
      t.trace = (sp .spWritePrescale false Env.quiet).trace ++ [.request (.write 0x40#8 0xFE#8 0x79#8)] :=
  ⟨inv_sp rfl _ _, _, rfl, by decide⟩

theorem witness_PrescaleWriteFollowsSleepWrite :
    Inv (sp .spWritePrescale false Env.quiet) ∧ FlightTrace (sp .spWritePrescale false Env.quiet) ∧
    ∃ t, step (sp .spWritePrescale false Env.quiet) = .next t ∧
      t.trace = (sp .spWritePrescale false Env.quiet).trace ++ [.request (.write 0x40#8 0xFE#8 0x79#8)] :=
  ⟨inv_sp rfl _ _, flightTrace_sp rfl _ _, _, rfl, by decide⟩

theorem witness_RestartWriteFollowsSettle :
    Inv (sp .spWriteRestart false Env.quiet) ∧ FlightTrace (sp .spWriteRestart false Env.quiet) ∧
    ∃ t, step (sp .spWriteRestart false Env.quiet) = .next t ∧
      t.trace = (sp .spWriteRestart false Env.quiet).trace ++ [.request (.write 0x40#8 0x00#8 0xA1#8)] :=
  ⟨inv_sp rfl _ _, flightTrace_sp rfl _ _, _, rfl, by decide⟩

/-- A `CONSTRUCT` changes the address; a reset takes it away; a request carries it. -/
theorem witness_AddressFixedAtConstruction :
    (Inv (active { Env.quiet with commands := [0x01000000007F#48] }) ∧
      (nextOf (step (active { Env.quiet with commands := [0x01000000007F#48] }))).map (·.dev.address) =
        some (some 0x7F#7)) ∧
    (Inv (active { Env.quiet with resets := [0] }) ∧
      (nextOf (step (active { Env.quiet with resets := [0] }))).map (·.dev.devState) = some .unbound) ∧
    (Inv (sc .scWriteOnL false Env.quiet) ∧ ∃ t, step (sc .scWriteOnL false Env.quiet) = .next t ∧
      t.trace = (sc .scWriteOnL false Env.quiet).trace ++ [.request (.write 0x40#8 0x22#8 0x34#8)]) :=
  ⟨⟨inv_active _, by decide⟩, ⟨inv_active _, by decide⟩, inv_sc rfl _ _, _, rfl, by decide⟩

/-- A commit changes the record; a reset changes it. -/
theorem witness_RecordChangesOnlyWithOk :
    (∃ t, step (sp .spWriteRestart true (okEnv 0#8)) = .next t ∧
      t.dev ≠ (sp .spWriteRestart true (okEnv 0#8)).dev ∧ t.phase = .idle) ∧
    ∃ t, step (active { Env.quiet with resets := [0] }) = .next t ∧
      t.dev ≠ (active Env.quiet).dev ∧ t.trace = [.hardwareReset] :=
  ⟨⟨_, rfl, by decide, rfl⟩, _, rfl, by decide, rfl⟩

/-- The prescale write goes on to the restore write; and, with no restart asked for, returns. -/
theorem witness_PhaseFollowsTable :
    (resetAsserted (sp .spWritePrescale true (okEnv 0#8)) = false ∧
      ∃ t, step (sp .spWritePrescale true (okEnv 0#8)) = .next t ∧ t.phase = .spWriteRestore) ∧
    ∃ t, step (inFlight 0x020000000032#48 (.setPrescaleFromFrequency 50 false) 0x21#8 .spWritePrescale true
        (okEnv 0#8)) = .next t ∧ t.phase = .idle :=
  ⟨⟨rfl, _, rfl, rfl⟩, _, rfl, rfl⟩

theorem witness_StepOnlyConsumesEnvironment : ∃ t, step (sc .scWriteOnL true (okEnv 0#8)) = .next t := ⟨_, rfl⟩

theorem witness_CachesDecideNothing : ∃ t, step (sp .spWriteRestart true (okEnv 0#8)) = .next t := ⟨_, rfl⟩

theorem witness_CommandInFlightEnds :
    Inv (sp .spReadMode1 false (okEnv 0#8)) ∧ (sp .spReadMode1 false (okEnv 0#8)).phase ≠ .idle ∧
    AnswersReady (sp .spReadMode1 false (okEnv 0#8)) :=
  ⟨inv_sp rfl _ _, by decide, by unfold AnswersReady; decide⟩

end Sys2Proof.Tests
end

/-! PROOF. The events a step adds to the trace, said once, and what follows from them: the dialogue, and the error
values of a `BusError`. -/

namespace Sys2Proof.Machine

/-- The events one step from `s` to `t` adds to the trace (R6), with where the phase stands before and after. -/
inductive StepEvents (s t : State) : List Event → Prop
  | waited (ht : t.phase = s.phase) : StepEvents s t []
  | reset (ht : t.phase = .idle) : StepEvents s t [.hardwareReset]
  | started (w : CommandWord) (hs : s.phase = .idle) (ht : t.phase ≠ .idle) : StepEvents s t [.accepted w]
  | answered (w : CommandWord) (r : Response) (hs : s.phase = .idle) (ht : t.phase = .idle)
      (hr : ∀ e, r ≠ .error (.busError e)) : StepEvents s t [.accepted w, .response r]
  | issued (q : Request) (hs : s.phase ≠ .idle) (ht : t.phase = s.phase) : StepEvents s t [.request q]
  | wentOn (ev : Event) (hs : s.phase ≠ .idle) (ht : t.phase ≠ .idle) (hev : isReply ev = true) :
      StepEvents s t [ev]
  | returnedOk (ev : Event) (hs : s.phase ≠ .idle) (ht : t.phase = .idle) (hev : isReply ev = true) :
      StepEvents s t [ev, .response .ok]
  | readFailed (e : BusErr) (rest : List ReadReply) (hs : s.phase = .spReadMode1) (ht : t.phase = .idle)
      (he : s.env.readReplies = .err e :: rest) :
      StepEvents s t [.readReply (.err (errorLines s.cfg e)), .response (.error (.busError (errorLines s.cfg e)))]
  | writeFailed (e : BusErr) (rest : List WriteReply) (hs : s.phase ≠ .idle) (hr : s.phase ≠ .spReadMode1)
      (hd : s.phase ≠ .spSettle) (ht : t.phase = .idle) (he : s.env.writeReplies = .err e :: rest) :
      StepEvents s t [.writeReply (.err (errorLines s.cfg e)), .response (.error (.busError (errorLines s.cfg e)))]

/-- The events of an idle step. -/
theorem IdleOutcome.stepEvents {s t : State} (hs : s.phase = .idle) (h : IdleOutcome s t) :
    ∃ evs, t.trace = s.trace ++ evs ∧ StepEvents s t evs := by
  cases h with
  | waited h => exact ⟨[], by simp [h], .waited (by rw [h])⟩
  | illegal w rest why hc hd ht =>
    exact ⟨_, by simp [ht], .answered w (.error .illegalCommand) hs (by simp [ht]) (by simp)⟩
  | rejected w rest i k hc hd hk ht =>
    exact ⟨_, by simp [ht], .answered w (.error k) hs (by simp [ht]) (by simpa using hk)⟩
  | constructed w rest b hc hd hb ht => exact ⟨_, by simp [ht], .answered w .ok hs (by simp [ht]) (by simp)⟩
  | prescaleStarted w rest f r hc hd hu hf ht => exact ⟨_, by simp [ht], .started w hs (by simp [ht])⟩
  | channelStarted w rest n a b c d hc hd hu hn hon hoff ht => exact ⟨_, by simp [ht], .started w hs (by simp [ht])⟩

/-- The events of a step in which an open request is waited for. -/
theorem Completed.stepEvents {s t : State} (hs : s.phase ≠ .idle) (h : Completed s t) :
    ∃ evs, t.trace = s.trace ++ evs ∧ StepEvents s t evs := by
  cases h with
  | waited h => exact ⟨[], by simp [h], .waited (by rw [h])⟩
  | readOk m0 rest hp he ht => exact ⟨_, by simp [ht], .wentOn (.readReply (.ok m0)) hs (by simp [ht]) rfl⟩
  | readErr e rest hp he ht => exact ⟨_, by simp [ht], .readFailed e rest hp (by simp [ht]) he⟩
  | writeErr e rest hr hd hi he ht => exact ⟨_, by simp [ht], .writeFailed e rest hs hr hd (by simp [ht]) he⟩
  | delayDone extra rest hp he ht =>
    exact ⟨_, by simp [ht], .wentOn (.delayDone (s.cfg.settleUs + extra)) hs (by simp [ht]) rfl⟩
  | wentOn rest p hp he ht =>
    have hp' : p ≠ .idle := by rintro rfl; simp at hp
    exact ⟨_, by simp [ht], .wentOn (.writeReply .ok) hs (by simpa [ht] using hp') rfl⟩
  | toRestore rest hp hl he ht => exact ⟨_, by simp [ht], .wentOn (.writeReply .ok) hs (by simp [ht]) rfl⟩
  | committedAsleep rest m p hp hl hm hv he ht =>
    exact ⟨_, by simp [ht], .returnedOk (.writeReply .ok) hs (by simp [ht]) rfl⟩
  | committedActive rest m p hp hm hv he ht =>
    exact ⟨_, by simp [ht], .returnedOk (.writeReply .ok) hs (by simp [ht]) rfl⟩
  | channelDone rest hp he ht => exact ⟨_, by simp [ht], .returnedOk (.writeReply .ok) hs (by simp [ht]) rfl⟩

/-- What a step sees is not the count to the next reset. -/
theorem StepEvents.of_countReset {s t : State} {evs : List Event} (h : StepEvents (countReset s) t evs) :
    StepEvents s t evs := by
  cases h with
  | waited ht => exact .waited ht
  | reset ht => exact .reset ht
  | started w hs ht => exact .started w hs ht
  | answered w r hs ht hr => exact .answered w r hs ht hr
  | issued q hs ht => exact .issued q hs ht
  | wentOn ev hs ht hev => exact .wentOn ev hs ht hev
  | returnedOk ev hs ht hev => exact .returnedOk ev hs ht hev
  | readFailed e rest hs ht he => exact .readFailed e rest hs ht he
  | writeFailed e rest hs hr hd ht he => exact .writeFailed e rest hs hr hd ht he

/-- Every step that gives a next state adds one of these lists of events to the trace. -/
theorem step_stepEvents {s t : State} (h : step s = .next t) :
    ∃ evs, t.trace = s.trace ++ evs ∧ StepEvents s t evs := by
  obtain ⟨_, rfl⟩ | ⟨_, hp, h⟩ | ⟨_, hp, _, q, _, rfl⟩ | ⟨_, hp, _, h⟩ := step_cases h
  · exact ⟨_, hardwareReset_trace s, .reset rfl⟩
  · obtain ⟨evs, htr, hev⟩ := IdleOutcome.stepEvents (s := countReset s) hp (idleStep_outcome hp h)
    exact ⟨evs, htr, hev.of_countReset⟩
  · exact ⟨_, issue_trace q (countReset s), .issued q hp rfl⟩
  · obtain ⟨evs, htr, hev⟩ := Completed.stepEvents (s := countReset s) hp (completePhase_cases h)
    exact ⟨evs, htr, hev.of_countReset⟩

/-! ### The dialogue -/

theorem busy_of_idle {s : State} (h : s.phase = .idle) : busy s = false := by simp [busy, h]

theorem busy_of_ne_idle {s : State} (h : s.phase ≠ .idle) : busy s = true := by simp [busy, h]

/-- A reply inside a command leaves the command in flight (R42). -/
theorem dialogue_reply {ev : Event} (h : isReply ev = true) : dialogue (some true) ev = some true := by
  match ev, h with
  | .readReply r, _ => exact dialogue_readReply r
  | .writeReply r, _ => exact dialogue_writeReply r
  | .delayDone us, _ => exact dialogue_delayDone us

/-- Read as dialogue, the events of a step lead from where the phase stood to where it stands. -/
theorem StepEvents.dialogue {s t : State} {evs : List Event} (h : StepEvents s t evs) :
    evs.foldl Machine.dialogue (some (busy s)) = some (busy t) := by
  cases h with
  | waited ht => simp [busy, ht]
  | reset ht => simp [busy_of_idle ht]
  | started w hs ht => simp [busy_of_idle hs, busy_of_ne_idle ht]
  | answered w r hs ht hr => simp [busy_of_idle hs, busy_of_idle ht]
  | issued q hs ht => simp [busy_of_ne_idle hs, busy_of_ne_idle (ht ▸ hs)]
  | wentOn ev hs ht hev => simp [busy_of_ne_idle hs, busy_of_ne_idle ht, dialogue_reply hev]
  | returnedOk ev hs ht hev => simp [busy_of_ne_idle hs, busy_of_idle ht, dialogue_reply hev]
  | readFailed e rest hs ht he => simp [busy_of_ne_idle (s := s) (by simp [hs]), busy_of_idle ht]
  | writeFailed e rest hs hr hd ht he => simp [busy_of_ne_idle hs, busy_of_idle ht]

/-- Settles O45: the events a step adds lead the dialogue from the old phase to the new one. -/
theorem stepKeepsDialogue : Obligations.StepKeepsDialogue := by
  intro s t hs h
  obtain ⟨evs, htr, hev⟩ := step_stepEvents h
  calc dialogueOf t.trace
      = evs.foldl dialogue (dialogueOf s.trace) := by rw [htr, dialogueOf, List.foldl_append, dialogueOf]
    _ = evs.foldl dialogue (some (busy s)) := by rw [hs]
    _ = some (busy t) := hev.dialogue

/-! ### The error value of a `BusError` -/

/-- A step that ends in `BusError(e)` took an `err` reply in a phase that reads or writes, and `e` is what the block's
lines carry of its value (R33, R136). -/
theorem step_busError {s t : State} {evs : List Event} {e : BusErr} (h : step s = .next t)
    (htr : t.trace = s.trace ++ evs ++ [.response (.error (.busError e))]) :
    ∃ e₀, e = errorLines s.cfg e₀ ∧
      ((s.phase = .spReadMode1 ∧ evs = [.readReply (.err e)] ∧ ∃ rest, s.env.readReplies = .err e₀ :: rest) ∨
       (s.phase ≠ .idle ∧ s.phase ≠ .spReadMode1 ∧ s.phase ≠ .spSettle ∧ evs = [.writeReply (.err e)] ∧
        ∃ rest, s.env.writeReplies = .err e₀ :: rest)) := by
  obtain ⟨new, hnew, hev⟩ := step_stepEvents h
  have hnew : new = evs ++ [.response (.error (.busError e))] := by
    rw [hnew, List.append_assoc] at htr
    exact List.append_cancel_left htr
  have hlast : new.getLast? = some (.response (.error (.busError e))) := by simp [hnew]
  cases hev with
  | waited | reset | started | issued => simp at hlast
  | answered w r hs ht hr => exact absurd (by simpa using hlast) (hr e)
  | wentOn ev hs ht hev =>
    obtain rfl : ev = _ := by simpa using hlast
    cases hev
  | returnedOk => simp at hlast
  | readFailed e₀ rest hs ht he =>
    obtain rfl : errorLines s.cfg e₀ = e := by simpa using hlast
    exact ⟨e₀, rfl, .inl ⟨hs, (List.append_cancel_right hnew).symm, rest, he⟩⟩
  | writeFailed e₀ rest hs hr hd ht he =>
    obtain rfl : errorLines s.cfg e₀ = e := by simpa using hlast
    exact ⟨e₀, rfl, .inr ⟨hs, hr, hd, (List.append_cancel_right hnew).symm, rest, he⟩⟩

/-- The block's lines carry the low `BUSERR_W` bits (R33). -/
theorem errorLines_toNat (c : Config) (e : BusErr) : (errorLines c e).toNat = e.toNat % 2 ^ c.busErrW := by
  simp only [errorLines, BitVec.toNat_setWidth]
  exact Nat.mod_eq_of_lt ((Nat.mod_le _ _).trans_lt e.isLt)

/-- An `err` reply to the open read raises `BusError`, whatever the phase does on `ok` (R33). -/
theorem awaitRead_err {s : State} {e : BusErr} {rest : List ReadReply} (onOk : Byte → State → Result)
    (he : s.env.readReplies = .err e :: rest) :
    awaitRead s onOk =
      .next (raiseError (.busError (errorLines s.cfg e)) (answeredRead s (.err (errorLines s.cfg e)) rest)) := by
  simp [awaitRead, he]

/-- An `err` reply to the open write raises `BusError`, whatever the phase does on `ok` (R33). -/
theorem awaitWrite_err {s : State} {e : BusErr} {rest : List WriteReply} (onOk : State → Result)
    (he : s.env.writeReplies = .err e :: rest) :
    awaitWrite s onOk =
      .next (raiseError (.busError (errorLines s.cfg e)) (answeredWrite s (.err (errorLines s.cfg e)) rest)) := by
  simp [awaitWrite, he]

/-- The reading phase, its read answered `err`. -/
theorem completePhase_readErr {s : State} {e : BusErr} {rest : List ReadReply} (hp : s.phase = .spReadMode1)
    (he : s.env.readReplies = .err e :: rest) :
    completePhase s =
      .next (raiseError (.busError (errorLines s.cfg e)) (answeredRead s (.err (errorLines s.cfg e)) rest)) := by
  rw [← awaitRead_err mode1Read he]
  simp [completePhase, hp]

/-- Any writing phase, its write answered `err`. -/
theorem completePhase_writeErr {s : State} {e : BusErr} {rest : List WriteReply} (hi : s.phase ≠ .idle)
    (hr : s.phase ≠ .spReadMode1) (hd : s.phase ≠ .spSettle) (he : s.env.writeReplies = .err e :: rest) :
    completePhase s =
      .next (raiseError (.busError (errorLines s.cfg e)) (answeredWrite s (.err (errorLines s.cfg e)) rest)) := by
  unfold completePhase
  split
  case h_1 => contradiction
  case h_2 => contradiction
  case h_6 => contradiction
  all_goals exact awaitWrite_err _ he

/-- Settles O41: every `BusError` comes from an `err` reply seen through `errorLines`, which keeps the low bits. -/
theorem busErrorWidth : Obligations.BusErrorWidth := by
  constructor
  · intro s t evs e h htr
    obtain ⟨e₀, rfl, _⟩ := step_busError h htr
    exact errorLines_fits s.cfg e₀
  · intro s e hr hq hi hd hread hwrite
    rw [step_complete hr hi hq]
    by_cases hp : s.phase = .spReadMode1
    · obtain ⟨rest, he⟩ := hread hp
      exact ⟨_, .readReply (.err (errorLines s.cfg e)), _,
        completePhase_readErr (s := countReset s) hp he, by simp, errorLines_toNat s.cfg e⟩
    · obtain ⟨rest, he⟩ := hwrite hp
      exact ⟨_, .writeReply (.err (errorLines s.cfg e)), _,
        completePhase_writeErr (s := countReset s) hi hp hd he, by simp, errorLines_toNat s.cfg e⟩

end Sys2Proof.Machine

/-! PROOF. No step puts anything into the environment. -/

namespace Sys2Proof.Machine

/-- From `s` to `t` the parameters stay, commands and answers are only taken from the front, and the reset schedule is
left alone (R7, R21). -/
structure OnlyConsumes (s t : State) : Prop where
  cfg : t.cfg = s.cfg
  commands : t.env.commands <:+ s.env.commands
  readReplies : t.env.readReplies <:+ s.env.readReplies
  writeReplies : t.env.writeReplies <:+ s.env.writeReplies
  timerSlack : t.env.timerSlack <:+ s.env.timerSlack
  resets : t.env.resets = s.env.resets

/-- An operation that touches neither the parameters nor the environment consumes nothing. -/
theorem OnlyConsumes.of_eq {s t : State} (hc : t.cfg = s.cfg) (he : t.env = s.env) : OnlyConsumes s t :=
  ⟨hc, by rw [he], by rw [he], by rw [he], by rw [he], by rw [he]⟩

theorem OnlyConsumes.trans {s t u : State} (h : OnlyConsumes s t) (h' : OnlyConsumes t u) : OnlyConsumes s u :=
  ⟨h'.cfg.trans h.cfg, h'.commands.trans h.commands, h'.readReplies.trans h.readReplies,
   h'.writeReplies.trans h.writeReplies, h'.timerSlack.trans h.timerSlack, h'.resets.trans h.resets⟩

theorem onlyConsumes_acceptCommand {s : State} {w : CommandWord} {rest : List CommandWord}
    (hc : s.env.commands = w :: rest) : OnlyConsumes s (acceptCommand w rest s) :=
  ⟨rfl, by simp [hc], List.suffix_rfl, List.suffix_rfl, List.suffix_rfl, rfl⟩

/-- The reply logged may differ from the one taken: an error value is seen through `errorLines`. -/
theorem onlyConsumes_answeredRead {s : State} {r : ReadReply} {rest : List ReadReply} (r' : ReadReply)
    (he : s.env.readReplies = r :: rest) : OnlyConsumes s (answeredRead s r' rest) :=
  ⟨rfl, List.suffix_rfl, by simp [he], List.suffix_rfl, List.suffix_rfl, rfl⟩

theorem onlyConsumes_answeredWrite {s : State} {r : WriteReply} {rest : List WriteReply} (r' : WriteReply)
    (he : s.env.writeReplies = r :: rest) : OnlyConsumes s (answeredWrite s r' rest) :=
  ⟨rfl, List.suffix_rfl, List.suffix_rfl, by simp [he], List.suffix_rfl, rfl⟩

theorem onlyConsumes_answeredDelay {s : State} {extra : Nat} {rest : List Nat}
    (he : s.env.timerSlack = extra :: rest) : OnlyConsumes s (answeredDelay s extra rest) :=
  ⟨rfl, List.suffix_rfl, List.suffix_rfl, List.suffix_rfl, by simp [he], rfl⟩

/-- An idle step takes at most the offered word. -/
theorem IdleOutcome.onlyConsumes {s t : State} (h : IdleOutcome s t) : OnlyConsumes s t := by
  cases h with
  | waited h => exact .of_eq (by rw [h]) (by rw [h])
  | illegal w rest why hc hd ht
  | rejected w rest i k hc hd hk ht
  | constructed w rest b hc hd hb ht
  | prescaleStarted w rest f r hc hd hu hf ht
  | channelStarted w rest n a b c d hc hd hu hn hon hoff ht =>
    exact (onlyConsumes_acceptCommand hc).trans (.of_eq (by simp [ht]) (by simp [ht]))

/-- A step that waits for an open request takes at most the reply to it. -/
theorem Completed.onlyConsumes {s t : State} (h : Completed s t) : OnlyConsumes s t := by
  cases h with
  | waited h => exact .of_eq (by rw [h]) (by rw [h])
  | readOk m0 rest hp he ht =>
    exact (onlyConsumes_answeredRead (.ok m0) he).trans (.of_eq (by simp [ht]) (by simp [ht]))
  | readErr e rest hp he ht =>
    exact (onlyConsumes_answeredRead (.err e) he).trans (.of_eq (by simp [ht]) (by simp [ht]))
  | delayDone extra rest hp he ht =>
    exact (onlyConsumes_answeredDelay he).trans (.of_eq (by simp [ht]) (by simp [ht]))
  | writeErr e rest hr hd hi he ht
  | wentOn rest p hp he ht
  | toRestore rest hp hl he ht
  | committedAsleep rest m p hp hl hm hv he ht
  | committedActive rest m p hp hm hv he ht
  | channelDone rest hp he ht =>
    exact (onlyConsumes_answeredWrite .ok he).trans (.of_eq (by simp [ht]) (by simp [ht]))

/-- A step either is a hardware reset or, its count to the next reset apart, only consumes. -/
theorem step_reset_or_onlyConsumes {s t : State} (h : step s = .next t) :
    (resetAsserted s = true ∧ t = hardwareReset s) ∨ OnlyConsumes (countReset s) t := by
  obtain h | ⟨_, hp, h⟩ | ⟨_, _, _, q, _, rfl⟩ | ⟨_, _, _, h⟩ := step_cases h
  · exact .inl h
  · exact .inr (idleStep_outcome (s := countReset s) hp h).onlyConsumes
  · exact .inr (.of_eq rfl rfl)
  · exact .inr (completePhase_cases h).onlyConsumes

/-- A suffix, in the form the statements use. -/
theorem exists_eq_append_of_suffix {α : Type} {l k : List α} (h : l <:+ k) : ∃ m, k = m ++ l :=
  h.imp fun _ => Eq.symm

/-- Settles O52: a reset takes one entry off the reset schedule; any other step consumes, and adds events. -/
theorem stepOnlyConsumesEnvironment : Obligations.StepOnlyConsumesEnvironment := by
  intro s t h
  obtain ⟨evs, htr, _⟩ := step_stepEvents h
  obtain ⟨hr, rfl⟩ | hc := step_reset_or_onlyConsumes h
  · exact ⟨rfl, ⟨evs, htr⟩, ⟨[], rfl⟩, ⟨[], rfl⟩, ⟨[], rfl⟩, ⟨[], rfl⟩, .inr ⟨hr, rfl⟩⟩
  · exact ⟨hc.cfg, ⟨evs, htr⟩, exists_eq_append_of_suffix hc.commands, exists_eq_append_of_suffix hc.readReplies,
      exists_eq_append_of_suffix hc.writeReplies, exists_eq_append_of_suffix hc.timerSlack, .inl hc.resets⟩

end Sys2Proof.Machine

/-! PROOF. The state: what reset leaves, and the invariant of the record, the latches and the phase. -/

namespace Sys2Proof.Machine

/-! ### Reset -/

/-- The hardware reset leaves the invariant, whatever the block was doing (R160, R165). -/
theorem Inv.of_hardwareReset {s : State} (hc : s.cfg.Legal) : Inv (hardwareReset s) :=
  ⟨hc, by rw [hardwareReset_dev]; decide, fun h => absurd rfl h, rfl, fun _ => rfl⟩

theorem FlightTrace.of_idle {s : State} (h : s.phase = .idle) : FlightTrace s := fun h' => absurd h h'

/-- Settles O1: each field of `State.reset` is written out in its definition. -/
theorem resetStateUnboundIdle : Obligations.ResetStateUnboundIdle :=
  ⟨rfl, rfl, rfl, rfl, rfl, rfl, rfl, rfl, rfl, rfl⟩

/-- Settles O3: at reset the record is `Unbound`, the phase `IDLE`, the latches and the trace empty. -/
theorem resetMeetsInvariants : Obligations.ResetMeetsInvariants :=
  ⟨⟨by decide, by decide, fun h => absurd rfl h, rfl, fun _ => rfl⟩, .of_idle rfl, by decide⟩

/-! ### The phases a plain `ok` leads to -/

/-- The phases left on `ok` with nothing but the phase changed, each with its successor (R12). -/
abbrev plainSuccessors : List (Phase × Phase) :=
  [(.spWriteSleep, .spWritePrescale), (.spWriteRestore, .spSettle),
   (.scWriteOnL, .scWriteOnH), (.scWriteOnH, .scWriteOffL), (.scWriteOffL, .scWriteOffH)]

theorem ne_idle_of_plainSuccessor {ph p : Phase} (h : (ph, p) ∈ plainSuccessors) : p ≠ .idle := by
  rintro rfl; simp at h

/-- A phase and its plain successor have the same latches. -/
theorem LatchesOk.of_plainSuccessor {ph p : Phase} {l : Latches} (hp : (ph, p) ∈ plainSuccessors)
    (h : LatchesOk ph l) : LatchesOk p l := by
  simp only [List.mem_cons, List.not_mem_nil, or_false, Prod.mk.injEq] at hp
  obtain ⟨rfl, rfl⟩ | ⟨rfl, rfl⟩ | ⟨rfl, rfl⟩ | ⟨rfl, rfl⟩ | ⟨rfl, rfl⟩ := hp <;> exact h

/-! ### The invariant -/

/-- A state of a command in flight meets the invariant if it has the parameters and the record of one that does, a
bound one, and the latches of its phase. -/
theorem Inv.of_inFlight {s t : State} (h : Inv s) (hc : t.cfg = s.cfg) (hd : t.dev = s.dev)
    (hb : s.dev.devState ≠ .unbound) (hp : t.phase ≠ .idle) (hl : LatchesOk t.phase t.lat) : Inv t :=
  ⟨hc ▸ h.cfgLegal, hd ▸ h.deviceOk, fun _ => hd ▸ hb, hl, fun h' => absurd h' hp⟩

/-- The record of a fresh Device is one R18 allows. -/
theorem constructedDevice_ok (b : Byte) : (constructedDevice b).Ok := by simp [constructedDevice, Device.Ok]

/-- The commit without a restart leaves a record R18 allows (R93). -/
theorem Device.Ok.committedAsleep {d : Device} (h : d.Ok) (hb : d.devState ≠ .unbound) {m p : Byte}
    (hm : asleepByte m = true) (hp : prescaleLegal p = true) :
    ({ d with mode1Cache := some m, prescaleCache := some p, devState := .sleeping } : Device).Ok := by
  obtain ⟨a, ha⟩ := h.address_of_bound hb
  obtain ⟨_, _, _, _, _, h2⟩ := h
  simp [Device.Ok, ha, hm, hp, h2]

/-- The commit after a restart leaves a record R18 allows (R93). -/
theorem Device.Ok.committedActive {d : Device} (h : d.Ok) (hb : d.devState ≠ .unbound) {m p : Byte}
    (hm : awakeByte m = true) (hp : prescaleLegal p = true) :
    ({ d with mode1Cache := some m, prescaleCache := some p, devState := .active } : Device).Ok := by
  obtain ⟨a, ha⟩ := h.address_of_bound hb
  obtain ⟨_, _, _, _, _, h2⟩ := h
  simp [Device.Ok, ha, hm, hp, h2]

/-- An idle step keeps the invariant. -/
theorem IdleOutcome.inv {s t : State} (h : Inv s) (ho : IdleOutcome s t) : Inv t := by
  cases ho with
  | waited ht => exact ht ▸ h
  | illegal w rest why hc hd ht => exact ht ▸ .of_endCommand _ h.cfgLegal h.deviceOk
  | rejected w rest i k hc hd hk ht => exact ht ▸ .of_endCommand _ h.cfgLegal h.deviceOk
  | constructed w rest b hc hd hb ht => exact ht ▸ .of_endCommand _ h.cfgLegal (constructedDevice_ok b)
  | prescaleStarted w rest f r hc hd hu hf ht =>
    subst ht
    exact h.of_inFlight rfl rfl hu (by simp) ⟨r, prescaleByte f, prescaleByte_legal f, rfl⟩
  | channelStarted w rest n onH onL offH offL hc hd hu hn hon hoff ht =>
    subst ht
    exact h.of_inFlight rfl rfl hu (by simp) ⟨n, onH, onL, offH, offL, hn, hon, hoff, rfl⟩

/-- A step in which an open request is waited for keeps the invariant. -/
theorem Completed.inv {s t : State} (h : Inv s) (hs : s.phase ≠ .idle) (ho : Completed s t) : Inv t := by
  have hb := h.boundInFlight hs
  cases ho with
  | waited ht => exact ht ▸ h
  | readErr e rest hp he ht => exact ht ▸ .of_endCommand _ h.cfgLegal h.deviceOk
  | writeErr e rest hr hd hi he ht => exact ht ▸ .of_endCommand _ h.cfgLegal h.deviceOk
  | channelDone rest hp he ht => exact ht ▸ .of_endCommand _ h.cfgLegal h.deviceOk
  | readOk m0 rest hp he ht =>
    subst ht
    obtain ⟨r, p, hl, hlat⟩ := h.latches_at hp
    exact h.of_inFlight rfl rfl hb (by simp) ⟨r, p, m0, hl, by simp [hlat]⟩
  | delayDone extra rest hp he ht =>
    subst ht
    exact h.of_inFlight rfl rfl hb (by simp) ((latchesOk_spSettle _).1 (h.latches_at hp))
  | wentOn rest p hp he ht =>
    subst ht
    exact h.of_inFlight rfl rfl hb (ne_idle_of_plainSuccessor hp) (h.latchesOk.of_plainSuccessor hp)
  | toRestore rest hp hr he ht =>
    subst ht
    obtain ⟨r, p, m0, hl, hlat⟩ := h.latches_at hp
    obtain rfl : r = true := by simpa [hlat] using hr
    exact h.of_inFlight rfl rfl hb (by simp) ⟨p, m0, hl, hlat⟩
  | committedAsleep rest m p hp hr hm hv he ht =>
    obtain ⟨r, p, m0, hl, hlat⟩ := h.latches_at hp
    obtain rfl : sleepByte m0 = m := by simpa [hlat] using hm
    obtain rfl : p = _ := by simpa [hlat] using hv
    exact ht ▸ .of_endCommand _ h.cfgLegal (h.deviceOk.committedAsleep hb (sleepByte_asleep m0) hl)
  | committedActive rest m p hp hm hv he ht =>
    obtain ⟨p, m0, hl, hlat⟩ := h.latches_at hp
    obtain rfl : restartByte (restoreByte m0) = m := by simpa [hlat] using hm
    obtain rfl : p = _ := by simpa [hlat] using hv
    exact ht ▸ .of_endCommand _ h.cfgLegal (h.deviceOk.committedActive hb (restartByte_awake m0) hl)

/-- Settles O42: a reset, an idle step, an issue and a completed phase each keep the invariant. -/
theorem stepKeepsInvariant : Obligations.StepKeepsInvariant := by
  intro s t h hstep
  obtain ⟨_, rfl⟩ | ⟨_, hp, hstep⟩ | ⟨_, hp, _, q, _, rfl⟩ | ⟨_, hp, _, hstep⟩ := step_cases hstep
  · exact .of_hardwareReset h.cfgLegal
  · exact (idleStep_outcome (s := countReset s) hp hstep).inv h.countReset
  · exact h.of_inFlight rfl rfl (h.boundInFlight hp) hp h.latchesOk
  · exact (completePhase_cases hstep).inv h.countReset hp

end Sys2Proof.Machine

/-! PROOF. The trace of the command in flight. -/

namespace Sys2Proof.Machine

/-! ### The full trace of a command, event by event -/

/-- Two events of its command belong to each phase with a plain successor. -/
theorem eventsBefore_plainSuccessor {ph p : Phase} (h : (ph, p) ∈ plainSuccessors) :
    eventsBefore p = eventsBefore ph + 2 :=
  (by decide : ∀ x ∈ plainSuccessors, eventsBefore x.2 = eventsBefore x.1 + 2) (ph, p) h

/-- A command that passes through a phase passes through its plain successor. -/
theorem usesPhase_plainSuccessor {i : Instr} {ph p : Phase} (h : (ph, p) ∈ plainSuccessors)
    (hu : usesPhase i ph = true) : usesPhase i p = true := by
  simp only [List.mem_cons, List.not_mem_nil, or_false, Prod.mk.injEq] at h
  obtain ⟨rfl, rfl⟩ | ⟨rfl, rfl⟩ | ⟨rfl, rfl⟩ | ⟨rfl, rfl⟩ | ⟨rfl, rfl⟩ := h <;> cases i <;> exact hu

/-- From the second phase on the latches of the flight do not change. -/
theorem flightLatches_congr {m0 : Byte} {ph p : Phase} {i : Instr} (h : ph ≠ .spReadMode1) (h' : p ≠ .spReadMode1) :
    flightLatches m0 ph i = flightLatches m0 p i := by
  cases i <;> simp [flightLatches, h, h']

/-- The request of a phase is the next event of the command's full trace: each phase a command passes through is one
row of its table (R12, R96, R117). -/
theorem commandTrace_request {s : State} {i : Instr} {a : DevAddr} {m0 : Byte} {q : Request} (elapsed : Nat)
    (hu : usesPhase i s.phase = true) (ha : s.dev.address = some a) (hl : s.lat = flightLatches m0 s.phase i)
    (hq : phaseRequest s = some q) :
    (commandTrace (devByte a) s.cfg.settleUs elapsed m0 i)[eventsBefore s.phase]? = some (.request q) := by
  cases i with
  | construct b => simp [usesPhase] at hu
  | setPrescaleFromFrequency f r =>
    cases r <;> cases hp : s.phase <;>
      simp_all [usesPhase, phaseRequest, readRequest, writeRequest, flightLatches, commandTrace, eventsBefore,
        readEvents, writeEvents, delayEvents]
  | setChannel n onH onL offH offL =>
    cases hp : s.phase <;>
      simp_all [usesPhase, phaseRequest, writeRequest, channelRegister, flightLatches, commandTrace, eventsBefore,
        writeEvents]

/-- After the request of a writing phase the full trace has the `ok` (R96, R117). -/
theorem commandTrace_writeOk {i : Instr} {ph : Phase} (a m0 : Byte) (us elapsed : Nat)
    (hu : usesPhase i ph = true) (hr : ph ≠ .spReadMode1) (hd : ph ≠ .spSettle) :
    (commandTrace a us elapsed m0 i)[eventsBefore ph + 1]? = some (.writeReply .ok) := by
  cases i with
  | construct b => simp [usesPhase] at hu
  | setPrescaleFromFrequency f r =>
    cases r <;> cases ph <;>
      simp_all [usesPhase, commandTrace, eventsBefore, readEvents, writeEvents, delayEvents]
  | setChannel n onH onL offH offL =>
    cases ph <;> simp_all [usesPhase, commandTrace, eventsBefore, writeEvents]

/-- Only a prescale command passes through the reading phase. -/
theorem eq_setPrescale_of_usesPhase_read {i : Instr} (h : usesPhase i .spReadMode1 = true) :
    ∃ f r, i = .setPrescaleFromFrequency f r := by
  cases i <;> simp_all [usesPhase]

/-- Only a prescale command that asks for a restart passes through the settle phase. -/
theorem eq_setPrescale_of_usesPhase_settle {i : Instr} (h : usesPhase i .spSettle = true) :
    ∃ f, i = .setPrescaleFromFrequency f true := by
  cases i <;> simp_all [usesPhase]

/-- The full trace as far as the answered read: what stands before the answer is the same for every byte read. -/
theorem commandTrace_take_read (a m0 m0' : Byte) (us elapsed f : Nat) (r : Bool) :
    (commandTrace a us elapsed m0' (.setPrescaleFromFrequency f r)).take 2 =
      (commandTrace a us elapsed m0 (.setPrescaleFromFrequency f r)).take 1 ++ [.readReply (.ok m0')] := by
  cases r <;> rfl

/-- The full trace as far as the settle delay: what stands before its end is the same however long it takes. -/
theorem commandTrace_take_delay (a m0 : Byte) (us elapsed elapsed' f : Nat) :
    (commandTrace a us elapsed' m0 (.setPrescaleFromFrequency f true)).take 10 =
      (commandTrace a us elapsed m0 (.setPrescaleFromFrequency f true)).take 9 ++ [.delayDone elapsed'] := rfl

/-! ### The flight -/

/-- The command in flight, named: what `FlightTrace` says of some command, byte and delay. -/
structure Flight (s : State) (before : List Event) (w : CommandWord) (i : Instr) (a : DevAddr) (m0 : Byte)
    (elapsed : Nat) : Prop where
  decoded : decode w = .command i
  uses : usesPhase i s.phase = true
  legal : operandsLegal s.cfg i = true
  address : s.dev.address = some a
  waited : s.cfg.settleUs ≤ elapsed
  latches : s.lat = flightLatches m0 s.phase i
  trace : s.trace = before ++ [.accepted w] ++
    (commandTrace (devByte a) s.cfg.settleUs elapsed m0 i).take
      (eventsBefore s.phase + if s.requested then 1 else 0)

/-- `FlightTrace` says that a busy block has a command in flight. -/
theorem flightTrace_iff (s : State) :
    FlightTrace s ↔ (s.phase ≠ .idle → ∃ before w i a m0 elapsed, Flight s before w i a m0 elapsed) := by
  refine imp_congr_right fun _ => ?_
  constructor
  · rintro ⟨before, w, i, a, m0, elapsed, hd, hu, hl, ha, he, hlat, ht⟩
    exact ⟨before, w, i, a, m0, elapsed, hd, hu, hl, ha, he, hlat, ht⟩
  · rintro ⟨before, w, i, a, m0, elapsed, hd, hu, hl, ha, he, hlat, ht⟩
    exact ⟨before, w, i, a, m0, elapsed, hd, hu, hl, ha, he, hlat, ht⟩

section
variable {s : State} {before : List Event} {w : CommandWord} {i : Instr} {a : DevAddr} {m0 : Byte} {elapsed : Nat}

theorem Flight.flightTrace (h : Flight s before w i a m0 elapsed) : FlightTrace s :=
  (flightTrace_iff s).2 fun _ => ⟨before, w, i, a, m0, elapsed, h⟩

/-- Counting towards the next reset leaves the flight. -/
theorem Flight.countReset (h : Flight s before w i a m0 elapsed) :
    Flight (countReset s) before w i a m0 elapsed :=
  ⟨h.decoded, h.uses, h.legal, h.address, h.waited, h.latches, h.trace⟩

/-- A command begins its flight: its word accepted, its first phase entered, nothing of its full trace yet (R25). -/
theorem Flight.started {rest : List CommandWord} {ph : Phase} {l : Latches} (hd : decode w = .command i)
    (hu : usesPhase i ph = true) (hl : operandsLegal s.cfg i = true) (ha : s.dev.address = some a)
    (hlat : l = flightLatches m0 ph i) (he : eventsBefore ph = 0) :
    Flight (enterPhase ph l (acceptCommand w rest s)) s.trace w i a m0 s.cfg.settleUs :=
  ⟨hd, hu, hl, ha, le_rfl, hlat, by simp [he]⟩

/-- Issuing the phase's request adds the next event of the full trace. -/
theorem Flight.issued {q : Request} (h : Flight s before w i a m0 elapsed) (hr : s.requested = false)
    (hq : phaseRequest s = some q) : Flight (issue q s) before w i a m0 elapsed where
  decoded := h.decoded
  uses := h.uses
  legal := h.legal
  address := h.address
  waited := h.waited
  latches := h.latches
  trace := by
    have hnext := commandTrace_request elapsed h.uses h.address h.latches hq
    simp [h.trace, hr, List.take_add_one, hnext]

/-- The `ok` to a phase's write is the next event of the full trace: the flight goes on in the next phase. -/
theorem Flight.writeOk {rest : List WriteReply} {p : Phase} (h : Flight s before w i a m0 elapsed)
    (hq : s.requested = true) (hr : s.phase ≠ .spReadMode1) (hd : s.phase ≠ .spSettle) (hu : usesPhase i p = true)
    (hp : eventsBefore p = eventsBefore s.phase + 2) :
    Flight (advance p (answeredWrite s .ok rest)) before w i a m0 elapsed where
  decoded := h.decoded
  uses := hu
  legal := h.legal
  address := h.address
  waited := h.waited
  latches := h.latches.trans (flightLatches_congr hr (by rintro rfl; simp [eventsBefore] at hp))
  trace := by
    have hnext := commandTrace_writeOk (devByte a) m0 s.cfg.settleUs elapsed h.uses hr hd
    simp [h.trace, hq, hp, List.take_add_one, hnext]

/-- The answer to the read fixes the byte of the flight. -/
theorem Flight.readOk {rest : List ReadReply} (m0' : Byte) (h : Flight s before w i a m0 elapsed)
    (hq : s.requested = true) (hp : s.phase = .spReadMode1) :
    Flight (advance .spWriteSleep { answeredRead s (.ok m0') rest with lat := latchMode1 m0' s.lat })
      before w i a m0' elapsed := by
  obtain ⟨hd, hu, hl, ha, he, hlat, ht⟩ := h
  obtain ⟨f, r, rfl⟩ := eq_setPrescale_of_usesPhase_read (hp ▸ hu)
  refine ⟨hd, rfl, hl, ha, he, by simp [hlat, hp, flightLatches], ?_⟩
  have hread := commandTrace_take_read (devByte a) m0 m0' s.cfg.settleUs elapsed f r
  simp [ht, hp, hq, eventsBefore, hread]

/-- The end of the settle delay fixes how long it took. -/
theorem Flight.delayDone {rest : List Nat} (extra : Nat) (h : Flight s before w i a m0 elapsed)
    (hq : s.requested = true) (hp : s.phase = .spSettle) :
    Flight (advance .spWriteRestart (answeredDelay s extra rest)) before w i a m0 (s.cfg.settleUs + extra) := by
  obtain ⟨hd, hu, hl, ha, he, hlat, ht⟩ := h
  obtain ⟨f, rfl⟩ := eq_setPrescale_of_usesPhase_settle (hp ▸ hu)
  refine ⟨hd, rfl, hl, ha, Nat.le_add_right _ _, by simp [hlat, hp, flightLatches], ?_⟩
  have hdelay := commandTrace_take_delay (devByte a) m0 s.cfg.settleUs elapsed (s.cfg.settleUs + extra) f
  simp [ht, hp, hq, eventsBefore, hdelay]

/-- A flight that asked for a restart passes through the restore phase. -/
theorem Flight.uses_restore (h : Flight s before w i a m0 elapsed) (hp : s.phase = .spWritePrescale)
    (hr : s.lat.restartAfter = some true) : usesPhase i .spWriteRestore = true := by
  obtain ⟨_, hu, _, _, _, hlat, _⟩ := h
  cases i <;> simp_all [usesPhase, flightLatches]

/-- A step in which an open request is waited for keeps the flight, or ends it. -/
theorem Flight.completed {t : State} (h : Flight s before w i a m0 elapsed) (hq : s.requested = true)
    (ho : Completed s t) : FlightTrace t := by
  cases ho with
  | waited ht => exact ht ▸ h.flightTrace
  | readErr e rest hp he ht => exact .of_idle (by simp [ht])
  | writeErr e rest hr hd hi he ht => exact .of_idle (by simp [ht])
  | committedAsleep rest m p hp hr hm hv he ht => exact .of_idle (by simp [ht])
  | committedActive rest m p hp hm hv he ht => exact .of_idle (by simp [ht])
  | channelDone rest hp he ht => exact .of_idle (by simp [ht])
  | readOk m0' rest hp he ht => exact ht ▸ (h.readOk m0' hq hp).flightTrace
  | delayDone extra rest hp he ht => exact ht ▸ (h.delayDone extra hq hp).flightTrace
  | toRestore rest hp hr he ht =>
    have hu := h.uses_restore hp hr
    exact ht ▸ (h.writeOk hq (by simp [hp]) (by simp [hp]) hu (by simp [hp, eventsBefore])).flightTrace
  | wentOn rest p hp he ht =>
    have hr : s.phase ≠ .spReadMode1 := by intro hs; simp [hs] at hp
    have hd : s.phase ≠ .spSettle := by intro hs; simp [hs] at hp
    have hu := usesPhase_plainSuccessor hp h.uses
    exact ht ▸ (h.writeOk hq hr hd hu (eventsBefore_plainSuccessor hp)).flightTrace

end

/-- An idle step leaves the block idle or begins the flight of the command it accepted. -/
theorem IdleOutcome.flightTrace {s t : State} (h : Inv s) (hs : s.phase = .idle) (ho : IdleOutcome s t) :
    FlightTrace t := by
  cases ho with
  | waited ht => exact .of_idle (ht ▸ hs)
  | illegal w rest why hc hd ht => exact .of_idle (by simp [ht])
  | rejected w rest i k hc hd hk ht => exact .of_idle (by simp [ht])
  | constructed w rest b hc hd hb ht => exact .of_idle (by simp [ht])
  | prescaleStarted w rest f r hc hd hu hf ht =>
    obtain ⟨a, ha⟩ := h.deviceOk.address_of_bound hu
    exact ht ▸ (Flight.started (m0 := 0#8) hd rfl hf ha rfl rfl).flightTrace
  | channelStarted w rest n onH onL offH offL hc hd hu hn hon hoff ht =>
    obtain ⟨a, ha⟩ := h.deviceOk.address_of_bound hu
    have hl : operandsLegal s.cfg (.setChannel n onH onL offH offL) = true := by
      simp [operandsLegal, hn, hon, hoff]
    exact ht ▸ (Flight.started (m0 := 0#8) hd rfl hl ha rfl rfl).flightTrace

/-- Settles O44: a reset or an error ends the flight; any other step of a command adds the next event of its full
trace. -/
theorem stepKeepsFlightTrace : Obligations.StepKeepsFlightTrace := by
  intro s t hinv hflight hstep
  obtain ⟨_, rfl⟩ | ⟨_, hp, hstep⟩ | ⟨_, hp, hr, q, hq, rfl⟩ | ⟨_, hp, hr, hstep⟩ := step_cases hstep
  · exact .of_idle rfl
  · exact (idleStep_outcome (s := countReset s) hp hstep).flightTrace hinv.countReset hp
  · obtain ⟨before, w, i, a, m0, elapsed, h⟩ := (flightTrace_iff s).1 hflight hp
    exact (h.countReset.issued hr hq).flightTrace
  · obtain ⟨before, w, i, a, m0, elapsed, h⟩ := (flightTrace_iff s).1 hflight hp
    exact h.countReset.completed hr (completePhase_cases hstep)

end Sys2Proof.Machine

/-! PROOF. The port, the accepting steps, the waits and the write phases. -/

namespace Sys2Proof.Machine

/-! ### Equations of the accepting steps -/

/-- A command given to a busy block waits (R25). -/
theorem exec_busy {s : State} (i : Instr) (h : s.phase ≠ .idle) : exec i s = .next s := by
  cases i <;> exact whenIdle_busy _ h

/-- A bound idle block accepts a legal frequency (R95). -/
theorem exec_setPrescale_accepted {s : State} {f : Nat} (r : Bool) (hp : s.phase = .idle)
    (hb : s.dev.devState ≠ .unbound) (hf : frequencyLegal s.cfg f = true) (h0 : f ≠ 0) :
    exec (.setPrescaleFromFrequency f r) s =
      .next (enterPhase .spReadMode1 (prescaleLatches r (prescaleByte f)) s) := by
  simp [exec_setPrescale, execSetPrescaleFromFrequency, whenIdle_idle _ hp, hb, hf, h0]

/-- A bound idle block accepts a legal channel and legal ticks (R122). -/
theorem exec_setChannel_accepted {s : State} {n : Nat} {onH offH : Byte} (onL offL : Byte) (hp : s.phase = .idle)
    (hb : s.dev.devState ≠ .unbound) (hn : channelLegal n = true) (hon : tickHighLegal onH = true)
    (hoff : tickHighLegal offH = true) :
    exec (.setChannel n onH onL offH offL) s =
      .next (enterPhase .scWriteOnL (channelLatches (channelBase n) onH onL offH offL) s) := by
  simp [exec_setChannel, execSetChannel, whenIdle_idle _ hp, hb, hn, hon, hoff]

/-- R7's constraint keeps 0 Hz outside the limits. -/
theorem ne_zero_of_frequencyLegal {c : Config} {f : Nat} (hc : c.Legal) (hf : frequencyLegal c f = true) : f ≠ 0 := by
  obtain ⟨hmin, _⟩ := hc
  obtain ⟨hlo, _⟩ := (frequencyLegal_iff c f).1 hf
  omega

/-- Settles O16: the checks of `SET_PRESCALE_FROM_FREQUENCY` pass one after the other. -/
theorem frequencyAccepted : Obligations.FrequencyAccepted := by
  intro s f r hc hp hb hlo hhi
  have hf := (frequencyLegal_iff s.cfg f).2 ⟨hlo, hhi⟩
  exact exec_setPrescale_accepted r hp hb hf (ne_zero_of_frequencyLegal hc hf)

/-- Settles O30: the checks of `SET_CHANNEL` pass one after the other. -/
theorem channelAccepted : Obligations.ChannelAccepted := by
  intro s n onH onL offH offL hp hb hn hon hoff
  exact exec_setChannel_accepted onL offL hp hb ((channelLegal_iff n).2 hn) ((tickHighLegal_iff onH).2 hon)
    ((tickHighLegal_iff offH).2 hoff)

/-! ### The command port -/

/-- In `IDLE` the offered word is accepted and its command runs (R25, R54). -/
theorem step_accepts {s : State} {w : CommandWord} {rest : List CommandWord} {i : Instr} (hr : resetAsserted s = false)
    (hp : s.phase = .idle) (hc : s.env.commands = w :: rest) (hd : decode w = .command i) :
    step s = exec i (acceptCommand w rest (countReset s)) := by
  simp [step_idle hr hp, idleStep, hc, hd]

theorem decode_of_decodeTableWord {nbits w : Nat} {i : Instr} (h : decodeTableWord nbits w = some i) :
    decode (tableWord nbits w) = .command i := by
  unfold decodeTableWord at h
  split at h
  · simp_all
  · cases h

/-- Settles O9: both clauses are the accepting step; `withFetchWord` offers the word on an idle block. -/
theorem stepRunsDecodedCommand : Obligations.StepRunsDecodedCommand :=
  ⟨fun _ _ _ _ hr hp hc hd => step_accepts hr hp hc hd,
   fun _ _ _ _ h => step_accepts (resetAsserted_of_no_resets _ rfl) rfl rfl (decode_of_decodeTableWord h)⟩

/-- A completed phase takes no word from the port. -/
theorem Completed.commands {s t : State} (h : Completed s t) : t.env.commands = s.env.commands := by
  cases h with
  | waited ht | readOk _ _ _ _ ht | readErr _ _ _ _ ht | writeErr _ _ _ _ _ _ ht | delayDone _ _ _ _ ht
  | wentOn _ _ _ _ ht | toRestore _ _ _ _ ht | committedAsleep _ _ _ _ _ _ _ _ ht
  | committedActive _ _ _ _ _ _ _ ht | channelDone _ _ _ ht => simp [ht]

/-- A step of a busy block takes no word from the port (R25). -/
theorem step_commands_of_busy {s t : State} (hs : s.phase ≠ .idle) (h : step s = .next t) :
    t.env.commands = s.env.commands := by
  obtain ⟨_, rfl⟩ | ⟨_, hp, _⟩ | ⟨_, _, _, q, _, rfl⟩ | ⟨_, _, _, h⟩ := step_cases h
  · rfl
  · exact absurd hp hs
  · rfl
  · exact (completePhase_cases h).commands

/-- A busy block records no word as accepted (R25). -/
theorem StepEvents.accepted_not_mem {s t : State} {evs : List Event} (hs : s.phase ≠ .idle) (h : StepEvents s t evs)
    (w : CommandWord) : Event.accepted w ∉ evs := by
  cases h with
  | started _ hs' | answered _ _ hs' => exact absurd hs' hs
  | waited | reset | issued | readFailed | writeFailed => simp
  | wentOn ev _ _ hev | returnedOk ev _ _ hev =>
    have : ev ≠ .accepted w := by rintro rfl; cases hev
    simpa using this.symm

/-- Settles O12: a busy step takes no word and records none, and every command waits for `IDLE`. -/
theorem busyPortTakesNothing : Obligations.BusyPortTakesNothing := by
  refine ⟨fun s t hs h => ?_, fun s i hs => exec_busy i hs⟩
  obtain ⟨evs, htr, hev⟩ := step_stepEvents h
  exact ⟨step_commands_of_busy hs h, evs, htr, hev.accepted_not_mem hs⟩

/-! ### The waits -/

theorem awaitRead_nil {s : State} (onOk : Byte → State → Result) (h : s.env.readReplies = []) :
    awaitRead s onOk = .next s := by
  simp [awaitRead, h]

theorem awaitWrite_nil {s : State} (onOk : State → Result) (h : s.env.writeReplies = []) :
    awaitWrite s onOk = .next s := by
  simp [awaitWrite, h]

theorem awaitWrite_ok {s : State} {rest : List WriteReply} (onOk : State → Result)
    (h : s.env.writeReplies = .ok :: rest) : awaitWrite s onOk = onOk (answeredWrite s .ok rest) := by
  simp [awaitWrite, h]

theorem awaitDelay_nil {s : State} (onDone : State → Result) (h : s.env.timerSlack = []) :
    awaitDelay s onDone = .next s := by
  simp [awaitDelay, h]

/-- Every phase but the idle, the reading and the settle phase waits for a write. -/
theorem completePhase_eq_awaitWrite {s : State} (hi : s.phase ≠ .idle) (hr : s.phase ≠ .spReadMode1)
    (hd : s.phase ≠ .spSettle) : ∃ onOk, completePhase s = awaitWrite s onOk := by
  unfold completePhase
  split
  case h_1 => contradiction
  case h_2 => contradiction
  case h_6 => contradiction
  all_goals exact ⟨_, rfl⟩

/-- Settles O11: each of the four waits finds its list empty. -/
theorem waitingChangesNothing : Obligations.WaitingChangesNothing := by
  intro s hr
  rintro (⟨hp, hc⟩ | ⟨hq, hp, he⟩ | ⟨hq, hp, he⟩ | ⟨hq, hi, hrd, hd, he⟩)
  · simp [step_idle hr hp, idleStep, hc]
  · rw [step_complete hr (by simp [hp]) hq, ← awaitRead_nil (s := countReset s) mode1Read he]
    simp [completePhase, hp]
  · rw [step_complete hr (by simp [hp]) hq, ← awaitDelay_nil (s := countReset s) settled he]
    simp [completePhase, hp]
  · obtain ⟨onOk, hw⟩ := completePhase_eq_awaitWrite (s := countReset s) hi hrd hd
    rw [step_complete hr hi hq, hw, awaitWrite_nil onOk (by exact he)]

/-! ### The write phases -/

/-- The request of a phase does not depend on the count to the next reset. -/
@[simp] theorem phaseRequest_countReset (s : State) : phaseRequest (countReset s) = phaseRequest s := rfl

theorem issuePhase_of_request {s : State} {q : Request} (h : phaseRequest s = some q) :
    issuePhase s = .next (issue q s) := by
  simp [issuePhase, h]

/-- A phase with a write request that waits for its answer performs the write. -/
theorem performsWrite_of_phase {s : State} {dev reg v : Byte} {onOk : State → State} {k : State → Result}
    (hr : resetAsserted s = false) (hi : s.phase ≠ .idle) (hq : phaseRequest s = some (.write dev reg v))
    (hw : completePhase (countReset s) = awaitWrite (countReset s) k)
    (hk : ∀ rest, k (answeredWrite (countReset s) .ok rest) = .next (onOk (afterWriteReply s .ok rest))) :
    PerformsWrite s dev reg v onOk := by
  refine ⟨fun ho => ?_, fun ho he => ?_, fun ho rest he => ?_, fun ho e rest hfit he => ?_⟩
  · rw [step_issue hr hi ho, issuePhase_of_request (by simpa using hq)]
  · rw [step_complete hr hi ho, hw, awaitWrite_nil k (by simpa using he)]
  · rw [step_complete hr hi ho, hw, awaitWrite_ok k (by simpa using he), hk]
  · rw [step_complete hr hi ho, hw, awaitWrite_err k (by simpa using he), errorLines_of_fits (by exact hfit)]
    rfl

/-- The latches of a channel command in flight. -/
theorem Inv.channel_latches {s : State} (h : Inv s)
    (hp : s.phase ∈ [Phase.scWriteOnL, .scWriteOnH, .scWriteOffL, .scWriteOffH]) :
    ∃ n onH onL offH offL, s.lat = channelLatches (channelBase n) onH onL offH offL := by
  obtain ⟨n, onH, onL, offH, offL, _, _, _, hl⟩ := (latchesOk_channel hp s.lat).1 h.latchesOk
  exact ⟨n, onH, onL, offH, offL, hl⟩

theorem channelReg_zero (base : Byte) : channelReg base 0 = base := by simp [channelReg]

/-- A channel phase that asks for the `k`-th write and waits for its answer performs that write (R116). -/
theorem Inv.performsChannelWrite {s : State} (h : Inv s) (hr : resetAsserted s = false)
    (hp : s.phase ∈ [Phase.scWriteOnL, .scWriteOnH, .scWriteOffL, .scWriteOffH])
    (k : Nat) (latch : Latches → Option Byte) (written : State → Result) {onOk : State → State}
    (hl : ∀ base onH onL offH offL, ∃ v, latch (channelLatches base onH onL offH offL) = some v)
    (hq : phaseRequest s = writeRequest s (channelRegister s k) (latch s.lat))
    (hw : completePhase (Machine.countReset s) = awaitWrite (Machine.countReset s) written)
    (hk : ∀ rest, written (answeredWrite (Machine.countReset s) .ok rest) = .next (onOk (afterWriteReply s .ok rest))) :
    ∃ a base v, s.dev.address = some a ∧ s.lat.base = some base ∧ latch s.lat = some v ∧
      PerformsWrite s (a.setWidth 8) (channelReg base k) v onOk := by
  have hi : s.phase ≠ .idle := by intro hs; simp [hs] at hp
  obtain ⟨a, ha⟩ := h.address_in_flight hi
  obtain ⟨n, onH, onL, offH, offL, hlat⟩ := h.channel_latches hp
  obtain ⟨v, hv⟩ := hl (channelBase n) onH onL offH offL
  rw [← hlat] at hv
  have hb : s.lat.base = some (channelBase n) := by simp [hlat]
  refine ⟨a, channelBase n, v, ha, hb, hv, performsWrite_of_phase hr hi ?_ hw hk⟩
  rw [hq, channelRegister, hb, hv]
  exact writeRequest_of_address _ v ha

/-- Settles O31: each phase asks for its channel write, and the `ok` moves the phase on or ends the command. -/
theorem channelWritePhases : Obligations.ChannelWritePhases := by
  intro s h hr
  refine ⟨fun hp => ?_, fun hp => ?_, fun hp => ?_, fun hp => ?_⟩
  · simpa only [channelReg_zero] using h.performsChannelWrite hr (by simp [hp]) 0 Latches.onL onLWritten
      (onOk := fun t => { t with phase := .scWriteOnH })
      (fun _ _ onL _ _ => ⟨onL, rfl⟩) (by simp [phaseRequest, hp]) (by simp [completePhase, hp]) fun _ => rfl
  · exact h.performsChannelWrite hr (by simp [hp]) 1 Latches.onH onHWritten
      (fun _ onH _ _ _ => ⟨onH, rfl⟩) (by simp [phaseRequest, hp]) (by simp [completePhase, hp]) fun _ => rfl
  · exact h.performsChannelWrite hr (by simp [hp]) 2 Latches.offL offLWritten
      (fun _ _ _ _ offL => ⟨offL, rfl⟩) (by simp [phaseRequest, hp]) (by simp [completePhase, hp]) fun _ => rfl
  · exact h.performsChannelWrite hr (by simp [hp]) 3 Latches.offH offHWritten
      (fun _ _ _ offH _ => ⟨offH, rfl⟩) (by simp [phaseRequest, hp]) (by simp [completePhase, hp]) fun _ => rfl

end Sys2Proof.Machine

/-! PROOF. No step from an invariant state stops. -/

namespace Sys2Proof.Machine

/-- Every command's accepting step gives a next state: R7 keeps 0 Hz outside the limits (R54). -/
theorem exec_next {s : State} (i : Instr) (hc : s.cfg.Legal) : ∃ t, exec i s = .next t := by
  by_cases hp : s.phase = .idle
  swap
  · exact ⟨s, exec_busy i hp⟩
  cases i with
  | construct b =>
    rw [exec_construct, execConstruct, whenIdle_idle _ hp]
    split_ifs <;> exact ⟨_, rfl⟩
  | setPrescaleFromFrequency f r =>
    rw [exec_setPrescale, execSetPrescaleFromFrequency, whenIdle_idle _ hp]
    split_ifs with _ hf h0
    · exact ⟨_, rfl⟩
    · exact ⟨_, rfl⟩
    · exact absurd h0 (ne_zero_of_frequencyLegal hc (by simpa using hf))
    · exact ⟨_, rfl⟩
  | setChannel n onH onL offH offL =>
    rw [exec_setChannel, execSetChannel, whenIdle_idle _ hp]
    split_ifs <;> exact ⟨_, rfl⟩

/-- An idle step gives a next state. -/
theorem idleStep_next {s : State} (hc : s.cfg.Legal) : ∃ t, idleStep s = .next t := by
  unfold idleStep
  split
  · exact ⟨_, rfl⟩
  · split
    · exact exec_next _ hc
    · exact ⟨_, rfl⟩

/-- Under the invariant every phase of a command has its request (R11, R12). -/
theorem Inv.phaseRequest_some {s : State} (h : Inv s) (hs : s.phase ≠ .idle) : ∃ q, phaseRequest s = some q := by
  obtain ⟨a, ha⟩ := h.address_in_flight hs
  have hl := h.latchesOk
  cases hp : s.phase with
  | idle => exact absurd hp hs
  | spReadMode1 => simp [phaseRequest, hp, readRequest, ha]
  | spSettle => simp [phaseRequest, hp]
  | spWriteSleep | spWritePrescale =>
    obtain ⟨r, p, m0, _, hlat⟩ := h.latches_at hp
    simp [phaseRequest, hp, writeRequest, ha, hlat]
  | spWriteRestore | spWriteRestart =>
    obtain ⟨p, m0, _, hlat⟩ := h.latches_at hp
    simp [phaseRequest, hp, writeRequest, ha, hlat]
  | scWriteOnL | scWriteOnH | scWriteOffL | scWriteOffH =>
    obtain ⟨n, onH, onL, offH, offL, hlat⟩ := h.channel_latches (by simp [hp])
    simp [phaseRequest, hp, writeRequest, channelRegister, ha, hlat]

theorem awaitRead_next {s : State} {onOk : Byte → State → Result}
    (h : ∀ b rest, ∃ t, onOk b (answeredRead s (.ok b) rest) = .next t) : ∃ t, awaitRead s onOk = .next t := by
  unfold awaitRead
  split
  · exact ⟨_, rfl⟩
  · exact h _ _
  · exact ⟨_, rfl⟩

theorem awaitWrite_next {s : State} {onOk : State → Result}
    (h : ∀ rest, ∃ t, onOk (answeredWrite s .ok rest) = .next t) : ∃ t, awaitWrite s onOk = .next t := by
  unfold awaitWrite
  split
  · exact ⟨_, rfl⟩
  · exact h _
  · exact ⟨_, rfl⟩

theorem awaitDelay_next {s : State} {onDone : State → Result}
    (h : ∀ extra rest, ∃ t, onDone (answeredDelay s extra rest) = .next t) : ∃ t, awaitDelay s onDone = .next t := by
  unfold awaitDelay
  split
  · exact ⟨_, rfl⟩
  · exact h _ _

/-- Under the invariant a phase whose request stands open gives a next state: the commits find their latches. -/
theorem Inv.completePhase_next {s : State} (h : Inv s) : ∃ t, completePhase s = .next t := by
  unfold completePhase
  split
  case h_1 => exact ⟨_, rfl⟩
  case h_2 => exact awaitRead_next fun _ _ => ⟨_, rfl⟩
  case h_4 hp =>
    obtain ⟨r, p, m0, _, hlat⟩ := h.latches_at hp
    refine awaitWrite_next fun rest => ?_
    cases r <;> simp [prescaleWritten, commitPrescale, hlat]
  case h_6 => exact awaitDelay_next fun _ _ => ⟨_, rfl⟩
  case h_7 hp =>
    obtain ⟨p, m0, _, hlat⟩ := h.latches_at hp
    refine awaitWrite_next fun rest => ?_
    simp [restartWritten, commitPrescale, hlat]
  all_goals exact awaitWrite_next fun _ => ⟨_, rfl⟩

/-- Settles O43: a reset, an idle step, an issue and a completed phase each give a next state. -/
theorem invariantStepsGoOn : Obligations.InvariantStepsGoOn := by
  intro s h
  cases hr : resetAsserted s
  · by_cases hp : s.phase = .idle
    · rw [step_idle hr hp]
      exact idleStep_next h.cfgLegal
    · cases hq : s.requested
      · obtain ⟨q, hq'⟩ := h.phaseRequest_some hp
        exact ⟨_, (step_issue hr hp hq).trans (issuePhase_of_request (by simpa using hq'))⟩
      · rw [step_complete hr hp hq]
        exact h.countReset.completePhase_next
  · exact ⟨_, step_reset hr⟩

end Sys2Proof.Machine

/-! PROOF. When the record changes, when the address does, and where the phase goes. -/

namespace Sys2Proof.Machine

/-! ### The record -/

/-- An idle step changes the record only by a successful `CONSTRUCT`, which answers `Ok` (R72). -/
theorem IdleOutcome.dev {s t : State} (h : IdleOutcome s t) :
    t.dev = s.dev ∨ ∃ w rest b, s.env.commands = w :: rest ∧ decode w = .command (.construct b) ∧
      addressLegal b = true ∧ t = returnOk { acceptCommand w rest s with dev := constructedDevice b } := by
  cases h with
  | constructed w rest b hc hd hb ht => exact .inr ⟨w, rest, b, hc, hd, hb, ht⟩
  | waited ht | illegal _ _ _ _ _ ht | rejected _ _ _ _ _ _ _ ht | prescaleStarted _ _ _ _ _ _ _ _ ht
  | channelStarted _ _ _ _ _ _ _ _ _ _ _ _ _ ht => exact .inl (by simp [ht])

/-- A completed phase changes the record only by a commit, which answers `Ok` (R93). -/
theorem Completed.dev {s t : State} (h : Completed s t) :
    t.dev = s.dev ∨ t.phase = .idle ∧ t.trace = s.trace ++ [.writeReply .ok, .response .ok] := by
  cases h with
  | committedAsleep _ _ _ _ _ _ _ _ ht | committedActive _ _ _ _ _ _ _ ht => exact .inr (by simp [ht])
  | waited ht | readOk _ _ _ _ ht | readErr _ _ _ _ ht | writeErr _ _ _ _ _ _ ht | delayDone _ _ _ _ ht
  | wentOn _ _ _ _ ht | toRestore _ _ _ _ ht | channelDone _ _ _ ht => exact .inl (by simp [ht])

/-- Settles O50: only a reset, a `CONSTRUCT` and a commit write the record, and the latter two answer `Ok`. -/
theorem recordChangesOnlyWithOk : Obligations.RecordChangesOnlyWithOk := by
  intro s t h hne
  obtain ⟨_, rfl⟩ | ⟨_, hp, h⟩ | ⟨_, _, _, q, _, rfl⟩ | ⟨_, _, _, h⟩ := step_cases h
  · exact .inr rfl
  · obtain hd | ⟨w, rest, b, _, _, _, rfl⟩ := (idleStep_outcome (s := countReset s) hp h).dev
    · exact absurd hd hne
    · exact .inl ⟨[.accepted w], by simp⟩
  · exact absurd rfl hne
  · obtain hd | ⟨hi, htr⟩ := (completePhase_cases h).dev
    · exact absurd hd hne
    · exact .inl ⟨[.writeReply .ok], by simpa using htr, hi⟩

/-! ### The address and the requests -/

/-- A completed phase leaves the address (R13). -/
theorem Completed.address {s t : State} (h : Completed s t) : t.dev.address = s.dev.address := by
  cases h with
  | waited ht | readOk _ _ _ _ ht | readErr _ _ _ _ ht | writeErr _ _ _ _ _ _ ht | delayDone _ _ _ _ ht
  | wentOn _ _ _ _ ht | toRestore _ _ _ _ ht | committedAsleep _ _ _ _ _ _ _ _ ht
  | committedActive _ _ _ _ _ _ _ ht | channelDone _ _ _ ht => simp [ht]

/-- Only a reset and a `CONSTRUCT` with a legal address change the address (R13). -/
theorem step_address {s t : State} (h : step s = .next t) (hne : t.dev.address ≠ s.dev.address) :
    (resetAsserted s = true ∧ t.dev.address = none) ∨
    (s.phase = .idle ∧ ∃ w rest b, s.env.commands = w :: rest ∧ decode w = .command (.construct b) ∧
      addressLegal b = true ∧ t.dev.address = some (devAddrOf b)) := by
  obtain ⟨hr, rfl⟩ | ⟨_, hp, h⟩ | ⟨_, _, _, q, _, rfl⟩ | ⟨_, _, _, h⟩ := step_cases h
  · exact .inl ⟨hr, rfl⟩
  · obtain hd | ⟨w, rest, b, hc, hd, hb, rfl⟩ := (idleStep_outcome (s := countReset s) hp h).dev
    · exact absurd (congrArg Device.address hd) hne
    · exact .inr ⟨hp, w, rest, b, hc, hd, hb, rfl⟩
  · exact absurd rfl hne
  · exact absurd (completePhase_cases h).address hne

/-- What a completed phase adds to the trace: nothing, or one reply, with the response if the command ends (R6). -/
theorem Completed.trace {s t : State} (h : Completed s t) :
    t = s ∨ ∃ ev evs, isReply ev = true ∧ (∀ q, Event.request q ∉ evs) ∧ t.trace = s.trace ++ [ev] ++ evs := by
  cases h with
  | waited ht => exact .inl ht
  | readOk _ _ _ _ ht | delayDone _ _ _ _ ht | wentOn _ _ _ _ ht | toRestore _ _ _ _ ht =>
    exact .inr ⟨_, [], rfl, by simp, by rw [ht, List.append_nil]; rfl⟩
  | readErr _ _ _ _ ht | writeErr _ _ _ _ _ _ ht | committedAsleep _ _ _ _ _ _ _ _ ht
  | committedActive _ _ _ _ _ _ _ ht | channelDone _ _ _ ht =>
    exact .inr ⟨_, [.response _], rfl, by simp, by rw [ht]; rfl⟩

/-- An idle block issues no request. -/
theorem StepEvents.request_not_mem {s t : State} {evs : List Event} (hs : s.phase = .idle) (h : StepEvents s t evs)
    (q : Request) : Event.request q ∉ evs := by
  cases h with
  | issued _ hs' | wentOn _ hs' | returnedOk _ hs' | writeFailed _ _ hs' => exact absurd hs hs'
  | waited | reset | started | answered | readFailed => simp

/-- A step that issues a request issues the phase's own (R12). -/
theorem phaseRequest_of_issued {s t : State} {evs : List Event} {q : Request} (h : step s = .next t)
    (htr : t.trace = s.trace ++ evs) (hq : Event.request q ∈ evs) : phaseRequest s = some q := by
  obtain ⟨_, rfl⟩ | ⟨_, hp, _⟩ | ⟨_, _, _, q', hq', rfl⟩ | ⟨_, _, _, h⟩ := step_cases h
  · obtain rfl : [.hardwareReset] = evs := List.append_cancel_left htr
    simp at hq
  · obtain ⟨evs', htr', hev⟩ := step_stepEvents h
    obtain rfl : evs = evs' := List.append_cancel_left (htr.symm.trans htr')
    exact absurd hq (hev.request_not_mem hp q)
  · obtain rfl : [.request q'] = evs := List.append_cancel_left htr
    obtain rfl : q = q' := by simpa using hq
    exact hq'
  · obtain rfl | ⟨ev, evs', hev, hno, htr'⟩ := (completePhase_cases h).trace
    · obtain rfl : evs = [] := by simpa using htr
      simp at hq
    · obtain rfl : evs = [ev] ++ evs' :=
        List.append_cancel_left (htr.symm.trans (htr'.trans (List.append_assoc ..)))
      obtain rfl | hq := List.mem_cons.1 hq
      · cases hev
      · exact absurd hq (hno q)

/-- What a phase asks for goes to the Device's own address, or to the timer (R12, R37). -/
theorem phaseRequest_address {s : State} {q : Request} (h : phaseRequest s = some q) :
    q = .delay s.cfg.settleUs ∨ ∃ a, s.dev.address = some a ∧
      ((∃ reg, q = .read (devByte a) reg) ∨ ∃ reg v, q = .write (devByte a) reg v) := by
  unfold phaseRequest at h
  split at h
  case h_1 => cases h
  case h_2 =>
    obtain ⟨a, ha, hq⟩ := readRequest_eq_some h
    exact .inr ⟨a, ha, .inl ⟨_, hq⟩⟩
  case h_6 => exact .inl (Option.some.inj h).symm
  all_goals
    obtain ⟨a, r, b, ha, _, _, hq⟩ := writeRequest_eq_some h
    exact .inr ⟨a, ha, .inr ⟨r, b, hq⟩⟩

/-- The phase's request names a phase of a command. -/
theorem ne_idle_of_phaseRequest {s : State} {q : Request} (h : phaseRequest s = some q) : s.phase ≠ .idle := by
  intro hp; simp [phaseRequest, hp] at h

/-- Settles O49: what changes the address, the record R18 allows, and the phase's own request. -/
theorem addressFixedAtConstruction : Obligations.AddressFixedAtConstruction := by
  intro s t hinv h
  refine ⟨fun hne => ?_, fun hu => ?_, fun q htr => ?_⟩
  · obtain hr | ⟨hp, w, rest, b, hc, hd, hb, ha⟩ := step_address h hne
    · exact .inl hr
    · exact .inr ⟨hp, w, rest, b, hc, hd, (addressLegal_iff b).1 hb, devAddrOf_eq b ▸ ha⟩
  · obtain ⟨hunbound, _⟩ := (stepKeepsInvariant s t hinv h).deviceOk
    exact (hunbound hu).1
  · have hq := phaseRequest_of_issued h htr (List.mem_singleton_self _)
    obtain hdelay | ⟨a, ha, hbus⟩ := phaseRequest_address hq
    · obtain ⟨a, ha⟩ := hinv.address_in_flight (ne_idle_of_phaseRequest hq)
      exact ⟨a, ha, .inl ⟨_, hdelay⟩⟩
    · exact ⟨a, ha, .inr hbus⟩

/-! ### The phase -/

/-- From `IDLE` the phase moves to a command's first phase or stays (R25). -/
theorem IdleOutcome.phase {s t : State} (h : IdleOutcome s t) (hne : t.phase ≠ s.phase) (hs : s.phase = .idle) :
    t.phase ∈ nextPhases s.phase := by
  rw [hs] at hne ⊢
  cases h with
  | waited ht => exact absurd (ht ▸ hs) hne
  | illegal _ _ _ _ _ ht | rejected _ _ _ _ _ _ _ ht | constructed _ _ _ _ _ _ ht => exact absurd (by simp [ht]) hne
  | prescaleStarted _ _ _ _ _ _ _ _ ht | channelStarted _ _ _ _ _ _ _ _ _ _ _ _ _ ht => simp [ht, nextPhases]

/-- Every phase that reads or writes can end its command. -/
theorem idle_mem_nextPhases {ph : Phase} (hi : ph ≠ .idle) (hd : ph ≠ .spSettle) : Phase.idle ∈ nextPhases ph := by
  cases ph <;> simp_all [nextPhases]

theorem mem_nextPhases_plainSuccessor {ph p : Phase} (h : (ph, p) ∈ plainSuccessors) : p ∈ nextPhases ph :=
  (by decide : ∀ x ∈ plainSuccessors, x.2 ∈ nextPhases x.1) (ph, p) h

/-- A completed phase moves along the table (R12). -/
theorem Completed.phase {s t : State} (h : Completed s t) (hne : t.phase ≠ s.phase) : t.phase ∈ nextPhases s.phase := by
  cases h with
  | waited ht => exact absurd (by rw [ht]) hne
  | wentOn rest p hp he ht => simpa [ht] using mem_nextPhases_plainSuccessor hp
  | writeErr e rest hr hd hi he ht => simpa [ht] using idle_mem_nextPhases hi hd
  | readOk _ _ hp _ ht | readErr _ _ hp _ ht | delayDone _ _ hp _ ht | toRestore _ hp _ _ ht
  | committedAsleep _ _ _ hp _ _ _ _ ht | committedActive _ _ _ hp _ _ _ ht | channelDone _ hp _ ht =>
    simp [ht, hp, nextPhases]

/-- The prescale write goes on to the restore write only if a restart was asked for (R92). -/
theorem Completed.restart_of_restore {s t : State} (h : Completed s t) (hp : s.phase = .spWritePrescale)
    (ht : t.phase = .spWriteRestore) : s.lat.restartAfter = some true := by
  cases h with
  | toRestore _ _ hl => exact hl
  | waited ht' | readOk _ _ _ _ ht' | readErr _ _ _ _ ht' | writeErr _ _ _ _ _ _ ht' | delayDone _ _ _ _ ht'
  | committedAsleep _ _ _ _ _ _ _ _ ht' | committedActive _ _ _ _ _ _ _ ht' | channelDone _ _ _ ht' =>
    simp [ht', hp] at ht
  | wentOn rest p hs he ht' => simp [hp] at hs

/-- The prescale write returns `Ok` only if no restart was asked for (R93). -/
theorem Completed.no_restart_of_ok {s t : State} {evs : List Event} (h : Completed s t)
    (hp : s.phase = .spWritePrescale) (hne : t.phase ≠ s.phase)
    (htr : t.trace = s.trace ++ evs ++ [.response .ok]) : s.lat.restartAfter = some false := by
  have hlast : t.trace.getLast? = some (.response .ok) := by simp [htr]
  cases h with
  | committedAsleep _ _ _ _ hl => exact hl
  | waited ht => exact absurd (by rw [ht]) hne
  | readOk _ _ hp' | readErr _ _ hp' | delayDone _ _ hp' | committedActive _ _ _ hp' | channelDone _ hp' =>
    simp [hp] at hp'
  | wentOn rest p hs he ht => simp [hp] at hs
  | writeErr _ _ _ _ _ _ ht | toRestore _ _ _ _ ht => simp [ht] at hlast

/-- Settles O51: only an idle step and a completed phase move the phase, each along the table. -/
theorem phaseFollowsTable : Obligations.PhaseFollowsTable := by
  intro s t hr h hne
  obtain ⟨hr', _⟩ | ⟨_, hp, h⟩ | ⟨_, _, _, q, _, rfl⟩ | ⟨_, hp, hq, h⟩ := step_cases h
  · simp [hr] at hr'
  · exact ⟨(idleStep_outcome (s := countReset s) hp h).phase hne hp, fun hs => absurd hp hs,
      fun hs => by simp [hp] at hs, fun hs => by simp [hp] at hs⟩
  · exact absurd rfl hne
  · have hc := completePhase_cases h
    refine ⟨hc.phase hne, fun _ => ⟨hq, ?_⟩, hc.restart_of_restore, fun hs ⟨_, htr⟩ => hc.no_restart_of_ok hs hne htr⟩
    obtain rfl | ⟨ev, evs, hev, _, htr⟩ := hc.trace
    · exact absurd rfl hne
    · exact ⟨ev, evs, hev, by simpa using htr⟩

end Sys2Proof.Machine

/-! PROOF. The values of the two caches decide nothing. -/

namespace Sys2Proof.Machine

/-- Two results that end the same way, in the same state but for the two caches. -/
inductive AgreeButCaches : Result → Result → Prop
  | next (m p : Option Byte) (t : State) : AgreeButCaches (.next t) (.next (withCaches m p t))
  | fault (r : Fault) : AgreeButCaches (.fault r) (.fault r)
  | refused (r : Refusal) : AgreeButCaches (.refused r) (.refused r)

/-- The caches decide nothing in what `k` does. -/
def CacheBlind (k : State → Result) : Prop := ∀ m p s, AgreeButCaches (k s) (k (withCaches m p s))

/-! ### The accepting steps -/

/-- Two conditionals agree where their conditions say the same and their branches agree. -/
theorem AgreeButCaches.ite {c c' : Prop} [Decidable c] [Decidable c'] {r₁ r₂ r₁' r₂' : Result} (hc : c ↔ c')
    (h₁ : AgreeButCaches r₁ r₁') (h₂ : AgreeButCaches r₂ r₂') :
    AgreeButCaches (if c then r₁ else r₂) (if c' then r₁' else r₂') := by
  by_cases h : c
  · rwa [if_pos h, if_pos (hc.1 h)]
  · rwa [if_neg h, if_neg (mt hc.2 h)]

theorem AgreeButCaches.whenIdle {m p : Option Byte} {s : State} {body body' : Result} (h : AgreeButCaches body body') :
    AgreeButCaches (whenIdle s body) (whenIdle (withCaches m p s) body') :=
  .ite Iff.rfl h (.next m p s)

/-- No command's accepting step looks at the caches; `CONSTRUCT` drops them. -/
theorem cacheBlind_exec (i : Instr) : CacheBlind (exec i) := by
  intro m p s
  cases i with
  | construct b => exact .whenIdle (.ite Iff.rfl (.next none none _) (.next m p _))
  | setPrescaleFromFrequency f r =>
    exact .whenIdle <| .ite Iff.rfl (.next m p _) <| .ite Iff.rfl (.next m p _) <|
      .ite Iff.rfl (.fault _) (.next m p _)
  | setChannel n onH onL offH offL =>
    exact .whenIdle <| .ite Iff.rfl (.next m p _) <| .ite Iff.rfl (.next m p _) <|
      .ite Iff.rfl (.next m p _) <| .ite Iff.rfl (.next m p _) (.next m p _)

theorem cacheBlind_idleStep : CacheBlind idleStep := by
  intro m p s
  unfold idleStep
  simp only [withCaches]
  split
  · exact .next m p _
  · split
    · exact cacheBlind_exec _ m p _
    · exact .next m p _

/-! ### The phases -/

theorem cacheBlind_issuePhase : CacheBlind issuePhase := by
  intro m p s
  have hq : phaseRequest (withCaches m p s) = phaseRequest s := rfl
  unfold issuePhase
  rw [hq]
  split
  · exact .next m p _
  · exact .fault _

theorem cacheBlind_awaitRead {k : Byte → State → Result} (h : ∀ b, CacheBlind (k b)) :
    CacheBlind fun s => awaitRead s k := by
  intro m p s
  simp only [awaitRead, withCaches]
  split
  · exact .next m p _
  · exact h _ m p _
  · exact .next m p _

theorem cacheBlind_awaitWrite {k : State → Result} (h : CacheBlind k) : CacheBlind fun s => awaitWrite s k := by
  intro m p s
  simp only [awaitWrite, withCaches]
  split
  · exact .next m p _
  · exact h m p _
  · exact .next m p _

theorem cacheBlind_awaitDelay {k : State → Result} (h : CacheBlind k) : CacheBlind fun s => awaitDelay s k := by
  intro m p s
  simp only [awaitDelay, withCaches]
  split
  · exact .next m p _
  · exact h m p _

/-- The commit writes both caches, from the latches alone (R93). -/
theorem AgreeButCaches.commitPrescale (mode1 prescale : Option Byte) (d : DevState) (m p : Option Byte) (s : State) :
    AgreeButCaches (commitPrescale mode1 prescale d s) (commitPrescale mode1 prescale d (withCaches m p s)) := by
  unfold Machine.commitPrescale
  split
  · exact .next _ _ _
  · exact .fault _

theorem cacheBlind_prescaleWritten : CacheBlind prescaleWritten := by
  intro m p s
  simp only [prescaleWritten, withCaches]
  split
  · exact .next m p _
  · exact .commitPrescale _ _ _ m p s
  · exact .fault _

theorem cacheBlind_restartWritten : CacheBlind restartWritten := fun m p s => .commitPrescale _ _ _ m p s

theorem cacheBlind_completePhase : CacheBlind completePhase := by
  intro m p s
  simp only [completePhase, withCaches]
  split
  case h_1 => exact .next m p _
  case h_2 => exact cacheBlind_awaitRead (fun _ m p _ => .next m p _) m p s
  case h_4 => exact cacheBlind_awaitWrite cacheBlind_prescaleWritten m p s
  case h_6 => exact cacheBlind_awaitDelay (fun m p _ => .next m p _) m p s
  case h_7 => exact cacheBlind_awaitWrite cacheBlind_restartWritten m p s
  all_goals exact cacheBlind_awaitWrite (fun m p _ => .next m p _) m p s

/-! ### The step -/

theorem cacheBlind_runStep : CacheBlind runStep := fun m p s =>
  .ite Iff.rfl (cacheBlind_idleStep m p s)
    (.ite Iff.rfl (cacheBlind_completePhase m p s) (cacheBlind_issuePhase m p s))

/-- A step does not look at the caches: a reset drops them, and no rule the sequencer follows reads one. -/
theorem cacheBlind_step : CacheBlind step := fun m p s =>
  .ite Iff.rfl (.next none none _) (cacheBlind_runStep m p (countReset s))

/-- Agreement, one clause for each way a result can end. -/
theorem AgreeButCaches.clauses {r r' : Result} (h : AgreeButCaches r r') :
    (∀ t, r = .next t → ∃ m p, r' = .next (withCaches m p t)) ∧ (∀ f, r = .fault f → r' = .fault f) ∧
      (∀ f, r = .refused f → r' = .refused f) := by
  cases h with
  | next m p t => exact ⟨fun _ h => ⟨m, p, by cases h; rfl⟩, fun _ h => (by cases h), fun _ h => (by cases h)⟩
  | fault r => exact ⟨fun _ h => (by cases h), fun _ h => h, fun _ h => (by cases h)⟩
  | refused r => exact ⟨fun _ h => (by cases h), fun _ h => (by cases h), fun _ h => h⟩

/-- Settles O53: a step with other caches agrees with the step. -/
theorem cachesDecideNothing : Obligations.CachesDecideNothing := fun s m p => (cacheBlind_step m p s).clauses

end Sys2Proof.Machine

/-! PROOF. What the block asks of the bus: the footprint of its requests, and what stands before the restart write. -/

namespace Sys2Proof.Machine

/-! ### The footprint (R36) -/

section
variable {s : State} {a : DevAddr} {q : Request}

/-- A write request lies in the footprint, at the Device's own address, if its register and its byte may go together. -/
theorem inFootprint_of_writeRequest {reg v : Byte} (ha : s.dev.address = some a)
    (hq : writeRequest s (some reg) (some v) = some q)
    (hv : InFootprint (devByte a) s.cfg.settleUs (.write (devByte a) reg v)) :
    InFootprint (devByte a) s.cfg.settleUs q := by
  rw [writeRequest_of_address reg v ha] at hq
  exact Option.some.inj hq ▸ hv

theorem inFootprint_mode1Write {us : Nat} {dev v : Byte} (h : Mode1Form v) :
    InFootprint dev us (.write dev regMode1 v) := ⟨rfl, .inl ⟨rfl, h⟩⟩

theorem inFootprint_prescaleWrite {us : Nat} {dev p : Byte} (h : prescaleLegal p = true) :
    InFootprint dev us (.write dev regPrescale p) := ⟨rfl, .inr (.inl ⟨rfl, h⟩)⟩

/-- The `k`-th register of a channel; `k` is 1 or 3 for the two `_H` registers (R49). -/
theorem inFootprint_channelWrite {us n k : Nat} {dev v : Byte} (hn : channelLegal n = true) (hk : k ≤ 3)
    (hv : k = 1 ∨ k = 3 → tickHighLegal v = true) :
    InFootprint dev us (.write dev (channelReg (channelBase n) k) v) := by
  have hn' := (channelLegal_iff n).1 hn
  exact ⟨rfl, .inr (.inr ⟨n, k, hn', hk, channelReg_toNat hn' hk, fun h => (tickHighLegal_iff v).1 (hv h)⟩)⟩

/-- The request of a phase lies in the footprint, at the Device's own address: the latches of the phase hold a MODE1
byte of one of the three forms, a legal prescale byte, or the registers and ticks of a legal channel (R20, R36). -/
theorem Inv.phaseRequest_inFootprint (h : Inv s) (ha : s.dev.address = some a) (hq : phaseRequest s = some q) :
    InFootprint (devByte a) s.cfg.settleUs q := by
  cases hp : s.phase <;> have hl := h.latches_at hp <;> simp only [phaseRequest, hp] at hq
  case idle => cases hq
  case spReadMode1 =>
    rw [readRequest_of_address regMode1 ha] at hq
    exact Option.some.inj hq ▸ ⟨rfl, rfl⟩
  case spWriteSleep =>
    obtain ⟨r, p, m0, _, hlat⟩ := hl
    rw [hlat] at hq
    exact inFootprint_of_writeRequest ha hq (inFootprint_mode1Write ⟨m0, .inl rfl⟩)
  case spWritePrescale =>
    obtain ⟨r, p, m0, hleg, hlat⟩ := hl
    rw [hlat] at hq
    exact inFootprint_of_writeRequest ha hq (inFootprint_prescaleWrite hleg)
  case spWriteRestore =>
    obtain ⟨p, m0, _, hlat⟩ := hl
    rw [hlat] at hq
    exact inFootprint_of_writeRequest ha hq (inFootprint_mode1Write ⟨m0, .inr (.inl rfl)⟩)
  case spSettle => exact Option.some.inj hq ▸ rfl
  case spWriteRestart =>
    obtain ⟨p, m0, _, hlat⟩ := hl
    rw [hlat] at hq
    exact inFootprint_of_writeRequest ha hq (inFootprint_mode1Write ⟨m0, .inr (.inr rfl)⟩)
  all_goals
    obtain ⟨n, onH, onL, offH, offL, hn, hon, hoff, hlat⟩ := hl
    rw [channelRegister, hlat] at hq
    exact inFootprint_of_writeRequest ha hq (inFootprint_channelWrite hn (by decide) (by simp [hon, hoff]))

end

/-- Settles O46: a step issues the request of its phase, which lies in the footprint. -/
theorem requestsInFootprint : Obligations.RequestsInFootprint := by
  intro s t evs q h hstep htr hq
  have hreq := phaseRequest_of_issued hstep htr hq
  obtain ⟨a, ha⟩ := h.address_in_flight (ne_idle_of_phaseRequest hreq)
  exact ⟨a, ha, h.phaseRequest_inFootprint ha hreq⟩

/-! ### Before the restart write (R90, R173) -/

/-- A step that adds a request found none open: while one is open, a step only waits or takes a reply (R12, R42). -/
theorem requested_eq_false_of_issued {s t : State} {q : Request} (hs : s.phase ≠ .idle) (h : step s = .next t)
    (htr : t.trace = s.trace ++ [.request q]) : s.requested = false := by
  obtain ⟨_, rfl⟩ | ⟨_, hp, _⟩ | ⟨_, _, hr, _⟩ | ⟨_, _, _, h⟩ := step_cases h
  · simp at htr
  · exact absurd hp hs
  · exact hr
  · obtain rfl | ⟨ev, evs, hev, _, htr'⟩ := (completePhase_cases h).trace
    · simp at htr
    · obtain ⟨rfl, _⟩ : ev = .request q ∧ evs = [] := by simpa [htr] using htr'.symm
      cases hev

/-- Only a prescale command that asks for a restart passes through the restart phase. -/
theorem eq_setPrescale_of_usesPhase_restart {i : Instr} (h : usesPhase i .spWriteRestart = true) :
    ∃ f, i = .setPrescaleFromFrequency f true := by
  cases i <;> simp_all [usesPhase]

/-- The full trace as far as the restart write ends with the restore write, its `ok`, and the settle delay (R96). -/
theorem commandTrace_take_restart (a m0 : Byte) (us elapsed f : Nat) :
    (commandTrace a us elapsed m0 (.setPrescaleFromFrequency f true)).take (eventsBefore .spWriteRestart) =
      (commandTrace a us elapsed m0 (.setPrescaleFromFrequency f true)).take (eventsBefore .spWriteRestore) ++
        (writeEvents a regMode1 (restoreByte m0) ++ delayEvents us elapsed) := rfl

/-- `RV` wakes the oscillator: its sleep bit is clear (R89). -/
theorem restoreByte_sleep_clear (m0 : Byte) : (restoreByte m0).getLsbD 4 = false := by simp [restoreByte_eq]

/-- A flight that has not yet asked for the restart write has just had its restore write answered `ok` and its settle
delay over. -/
theorem Flight.before_restart {s : State} {before : List Event} {w : CommandWord} {i : Instr} {a : DevAddr} {m0 : Byte}
    {elapsed : Nat} (h : Flight s before w i a m0 elapsed) (hp : s.phase = .spWriteRestart)
    (hr : s.requested = false) :
    ∃ earlier, s.trace = earlier ++
      (writeEvents (devByte a) regMode1 (restoreByte m0) ++ delayEvents s.cfg.settleUs elapsed) := by
  obtain ⟨f, rfl⟩ := eq_setPrescale_of_usesPhase_restart (hp ▸ h.uses)
  have htr := h.trace
  rw [hp, hr, if_neg Bool.false_ne_true, Nat.add_zero, commandTrace_take_restart, ← List.append_assoc] at htr
  exact ⟨_, htr⟩

/-- Settles O48: the restart write is the next event of the flight, and what the flight has behind it ends with the
restore write, its `ok`, and the settle delay. -/
theorem restartWriteFollowsSettle : Obligations.RestartWriteFollowsSettle := by
  intro s t dev v _ hflight hp hstep htr
  have hi : s.phase ≠ .idle := by simp [hp]
  obtain ⟨before, w, i, a, m0, elapsed, hf⟩ := (flightTrace_iff s).1 hflight hi
  obtain ⟨earlier, htrace⟩ := hf.before_restart hp (requested_eq_false_of_issued hi hstep htr)
  have hdev : dev = devByte a := by
    have hq := phaseRequest_of_issued hstep htr (List.mem_singleton_self _)
    obtain hq | ⟨a', ha, ⟨_, hq⟩ | ⟨_, _, hq⟩⟩ := phaseRequest_address hq
    · cases hq
    · cases hq
    · obtain rfl : a = a' := Option.some.inj (hf.address.symm.trans ha)
      exact (Request.write.inj hq).1
  subst hdev
  exact ⟨earlier, restoreByte m0, elapsed, htrace, restoreByte_sleep_clear m0, hf.waited⟩

end Sys2Proof.Machine

/-! PROOF. The encodings: the fields of a command word, the three formats, and the decoder against the encoder. -/

namespace Sys2Proof

/-! ### Fields of a command word -/

theorem getLsbD_fieldAt {k : Nat} (lo : Nat) (v : BitVec k) (i : Nat) :
    (fieldAt lo v).getLsbD i = (decide (i < 48) && decide (lo ≤ i) && v.getLsbD (i - lo)) := by
  by_cases hi : i < 48 <;> by_cases hlo : lo ≤ i <;> simp [fieldAt, hi, hlo]

/-- A field reads back what was put at its place. -/
@[simp] theorem extractLsb'_fieldAt {k lo : Nat} (v : BitVec k) (h : lo + k ≤ 48) :
    (fieldAt lo v).extractLsb' lo k = v := by
  apply BitVec.eq_of_getLsbD_eq
  intro i hi
  have : lo + i < 48 := by omega
  rw [BitVec.getLsbD_extractLsb', getLsbD_fieldAt]
  simp [hi, this]

/-- A field reads nothing of what was put beside it. -/
@[simp] theorem extractLsb'_fieldAt_of_disjoint {k lo lo' k' : Nat} (v : BitVec k)
    (h : lo + k ≤ lo' ∨ lo' + k' ≤ lo) : (fieldAt lo v).extractLsb' lo' k' = 0#k' := by
  apply BitVec.eq_of_getLsbD_eq
  intro i hi
  rw [BitVec.getLsbD_extractLsb', getLsbD_fieldAt]
  obtain h | h := h
  · simp [BitVec.getLsbD_of_ge v (lo' + i - lo) (by omega)]
  · simp [show ¬ lo ≤ lo' + i by omega]

@[simp] theorem fieldAt_zero (lo k : Nat) : fieldAt lo (0#k) = 0#48 := by simp [fieldAt]

/-- Two adjacent fields of a word are one field. -/
theorem fieldAt_or_fieldAt (w : CommandWord) {lo lo' k k' : Nat} (h : lo' + k' = lo) :
    fieldAt lo (w.extractLsb' lo k) ||| fieldAt lo' (w.extractLsb' lo' k') =
      fieldAt lo' (w.extractLsb' lo' (k' + k)) := by
  subst h
  apply BitVec.eq_of_getLsbD_eq
  intro i hi
  by_cases h₁ : lo' + k' ≤ i
  · have e : lo' + k' + (i - (lo' + k')) = lo' + (i - lo') := by omega
    simp [getLsbD_fieldAt, h₁, e, show lo' ≤ i by omega, show ¬ i - lo' < k' by omega,
      show i - (lo' + k') < k ↔ i - lo' < k' + k by omega]
  · by_cases h₂ : lo' ≤ i
    · simp [getLsbD_fieldAt, h₁, h₂, show i - lo' < k' by omega, show i - lo' < k' + k by omega]
    · simp [getLsbD_fieldAt, h₁, h₂]

theorem fieldAt_whole (w : CommandWord) : fieldAt 0 (w.extractLsb' 0 48) = w := by simp [fieldAt]

theorem ofBool_getLsbD (w : CommandWord) (k : Nat) : BitVec.ofBool (w.getLsbD k) = w.extractLsb' k 1 := by
  apply BitVec.eq_of_getLsbD_eq
  intro i hi
  obtain rfl : i = 0 := by omega
  simp

theorem getLsbD_eq_of_extractLsb'_one {w : CommandWord} {k : Nat} {b : Bool}
    (h : w.extractLsb' k 1 = BitVec.ofBool b) : w.getLsbD k = b := by
  simpa using congrArg (·.getLsbD 0) h

/-! ### The three formats -/

/-- A word with format C's fixed fields is the word of its operand (R51). -/
theorem encode_construct_of_fields {w : CommandWord} (hop : w.extractLsb' 40 8 = 0x01#8)
    (hres : w.extractLsb' 8 32 = 0#32) : encode (.construct (w.extractLsb' 0 8)) = w :=
  calc encode (.construct (w.extractLsb' 0 8))
    _ = fieldAt 40 (w.extractLsb' 40 8) ||| fieldAt 8 (w.extractLsb' 8 32) ||| fieldAt 0 (w.extractLsb' 0 8) := by
      simp [encode, hop, hres]
    _ = w := by simp only [fieldAt_or_fieldAt, fieldAt_whole, Nat.reduceAdd]

/-- A word with format P's fixed fields is the word of its operands (R52). -/
theorem encode_setPrescale_of_fields {w : CommandWord} (hop : w.extractLsb' 40 8 = 0x02#8)
    (hhi : w.extractLsb' 33 7 = 0#7) (hlo : w.extractLsb' 16 16 = 0#16) :
    encode (.setPrescaleFromFrequency (w.extractLsb' 0 16).toNat (w.getLsbD 32)) = w :=
  calc encode (.setPrescaleFromFrequency (w.extractLsb' 0 16).toNat (w.getLsbD 32))
    _ = fieldAt 40 (w.extractLsb' 40 8) ||| fieldAt 33 (w.extractLsb' 33 7) ||| fieldAt 32 (w.extractLsb' 32 1) |||
        fieldAt 16 (w.extractLsb' 16 16) ||| fieldAt 0 (w.extractLsb' 0 16) := by
      simp only [encode, ofBool_getLsbD, hop, hhi, hlo, fieldAt_zero, BitVec.or_zero, BitVec.ofNat_toNat,
        BitVec.setWidth_eq]
    _ = w := by simp only [fieldAt_or_fieldAt, fieldAt_whole, Nat.reduceAdd]

/-- A word with format T's opcode is the word of its operands (R53). -/
theorem encode_setChannel_of_fields {w : CommandWord} (hop : w.extractLsb' 40 8 = 0x03#8) :
    encode (.setChannel (w.extractLsb' 32 8).toNat (w.extractLsb' 24 8) (w.extractLsb' 16 8) (w.extractLsb' 8 8)
      (w.extractLsb' 0 8)) = w := by
  simp only [encode, ← hop, BitVec.ofNat_toNat, BitVec.setWidth_eq, fieldAt_or_fieldAt, fieldAt_whole, Nat.reduceAdd]

/-- Words of a row agree with its pattern in every field its mask covers. -/
theorem extractLsb'_of_matchesRow {r : TableRow} {w : CommandWord} (h : matchesRow r w = true) {lo k : Nat}
    (hm : r.mask.extractLsb' lo k = BitVec.allOnes k) : w.extractLsb' lo k = r.pattern.extractLsb' lo k := by
  rw [matchesRow, decide_eq_true_eq] at h
  rw [← h, BitVec.extractLsb'_and, hm, BitVec.and_allOnes]

/-- The words of format C: the opcode is 0x01 and bits 39:8 are clear (R51, R55). -/
theorem matchesRow_rowConstruct_iff (w : CommandWord) :
    matchesRow rowConstruct w = true ↔ w.extractLsb' 40 8 = 0x01#8 ∧ w.extractLsb' 8 32 = 0#32 := by
  constructor
  · intro h
    exact ⟨extractLsb'_of_matchesRow h rfl, extractLsb'_of_matchesRow h rfl⟩
  · rintro ⟨hop, hres⟩
    rw [← encode_construct_of_fields hop hres]
    exact Laws.EncodingMatchesTable.construct _

/-- The words of format P: the opcode is 0x02 and bits 39:33 and 31:16 are clear (R52, R55). -/
theorem matchesRow_rowSetPrescale_iff (w : CommandWord) :
    matchesRow rowSetPrescale w = true ↔
      w.extractLsb' 40 8 = 0x02#8 ∧ w.extractLsb' 33 7 = 0#7 ∧ w.extractLsb' 16 16 = 0#16 := by
  constructor
  · intro h
    exact ⟨extractLsb'_of_matchesRow h rfl, extractLsb'_of_matchesRow h rfl, extractLsb'_of_matchesRow h rfl⟩
  · rintro ⟨hop, hhi, hlo⟩
    rw [← encode_setPrescale_of_fields hop hhi hlo]
    exact Laws.EncodingMatchesTable.setPrescaleFromFrequency _ _

/-- The words of format T: the opcode is 0x03 (R53). -/
theorem matchesRow_rowSetChannel_iff (w : CommandWord) :
    matchesRow rowSetChannel w = true ↔ w.extractLsb' 40 8 = 0x03#8 := by
  constructor
  · intro h
    exact extractLsb'_of_matchesRow h rfl
  · intro hop
    rw [← encode_setChannel_of_fields hop]
    exact Laws.EncodingMatchesTable.setChannel _ _ _ _ _

/-! ### What the decoder answers -/

theorem decode_of_matchesRow_construct {w : CommandWord} (h : matchesRow rowConstruct w = true) :
    decode w = .command (.construct (w.extractLsb' 0 8)) := if_pos h

theorem decode_of_matchesRow_setPrescale {w : CommandWord} (h : matchesRow rowSetPrescale w = true) :
    decode w = .command (.setPrescaleFromFrequency (w.extractLsb' 0 16).toNat (w.getLsbD 32)) := by
  obtain ⟨hop, _⟩ := (matchesRow_rowSetPrescale_iff w).1 h
  have hC : ¬ matchesRow rowConstruct w = true := by simp [matchesRow_rowConstruct_iff, hop]
  rw [decode, if_neg hC, if_pos h]

theorem decode_of_matchesRow_setChannel {w : CommandWord} (h : matchesRow rowSetChannel w = true) :
    decode w = .command (.setChannel (w.extractLsb' 32 8).toNat (w.extractLsb' 24 8) (w.extractLsb' 16 8)
      (w.extractLsb' 8 8) (w.extractLsb' 0 8)) := by
  have hop := (matchesRow_rowSetChannel_iff w).1 h
  have hC : ¬ matchesRow rowConstruct w = true := by simp [matchesRow_rowConstruct_iff, hop]
  have hP : ¬ matchesRow rowSetPrescale w = true := by simp [matchesRow_rowSetPrescale_iff, hop]
  rw [decode, if_neg hC, if_neg hP, if_pos h]

theorem decode_of_no_row {w : CommandWord} (hC : ¬ matchesRow rowConstruct w = true)
    (hP : ¬ matchesRow rowSetPrescale w = true) (hT : ¬ matchesRow rowSetChannel w = true) :
    decode w = .illegal (illegalReason w) := by
  rw [decode, if_neg hC, if_neg hP, if_neg hT]

/-- The illegal words are those of no row (R55). -/
theorem exists_decode_eq_illegal_iff (w : CommandWord) :
    (∃ why, decode w = .illegal why) ↔
      ¬ matchesRow rowConstruct w = true ∧ ¬ matchesRow rowSetPrescale w = true ∧
        ¬ matchesRow rowSetChannel w = true := by
  constructor
  · rintro ⟨why, h⟩
    refine ⟨fun hC => ?_, fun hP => ?_, fun hT => ?_⟩
    · simp [decode_of_matchesRow_construct hC] at h
    · simp [decode_of_matchesRow_setPrescale hP] at h
    · simp [decode_of_matchesRow_setChannel hT] at h
  · rintro ⟨hC, hP, hT⟩
    exact ⟨_, decode_of_no_row hC hP hT⟩

/-- Settles O4: the word of a command is of its own row, and each field of it reads the operand put there. -/
theorem decodeOfEncode : Obligations.DecodeOfEncode := by
  intro i hi
  cases i with
  | construct a =>
    rw [decode_of_matchesRow_construct (Laws.EncodingMatchesTable.construct a)]
    simp [encode, BitVec.extractLsb'_or]
  | setPrescaleFromFrequency f r =>
    have hf : f < 65536 := of_decide_eq_true hi
    have hr : (encode (.setPrescaleFromFrequency f r)).getLsbD 32 = r :=
      getLsbD_eq_of_extractLsb'_one (by simp [encode, BitVec.extractLsb'_or])
    rw [decode_of_matchesRow_setPrescale (Laws.EncodingMatchesTable.setPrescaleFromFrequency f r), hr]
    simp [encode, BitVec.extractLsb'_or, hf]
  | setChannel n onH onL offH offL =>
    have hn : n < 256 := of_decide_eq_true hi
    rw [decode_of_matchesRow_setChannel (Laws.EncodingMatchesTable.setChannel n onH onL offH offL)]
    simp [encode, BitVec.extractLsb'_or, hn]

/-- Settles O5: a word of a row has the row's fixed fields, and with them it is the word of its operands. -/
theorem encodeOfDecode : Obligations.EncodeOfDecode := by
  intro w i h
  by_cases hC : matchesRow rowConstruct w = true
  · obtain rfl := Decoded.command.inj ((decode_of_matchesRow_construct hC).symm.trans h)
    obtain ⟨hop, hres⟩ := (matchesRow_rowConstruct_iff w).1 hC
    exact ⟨rfl, encode_construct_of_fields hop hres⟩
  by_cases hP : matchesRow rowSetPrescale w = true
  · obtain rfl := Decoded.command.inj ((decode_of_matchesRow_setPrescale hP).symm.trans h)
    obtain ⟨hop, hhi, hlo⟩ := (matchesRow_rowSetPrescale_iff w).1 hP
    exact ⟨decide_eq_true (BitVec.isLt _), encode_setPrescale_of_fields hop hhi hlo⟩
  by_cases hT : matchesRow rowSetChannel w = true
  · obtain rfl := Decoded.command.inj ((decode_of_matchesRow_setChannel hT).symm.trans h)
    exact ⟨decide_eq_true (BitVec.isLt _), encode_setChannel_of_fields ((matchesRow_rowSetChannel_iff w).1 hT)⟩
  · rw [decode_of_no_row hC hP hT] at h
    cases h

/-- Settles O6: a word is of no row; by its opcode, that is an unknown opcode or a reserved bit. -/
theorem illegalWordsExactly : Obligations.IllegalWordsExactly := by
  intro w
  rw [exists_decode_eq_illegal_iff, matchesRow_rowConstruct_iff, matchesRow_rowSetPrescale_iff,
    matchesRow_rowSetChannel_iff]
  by_cases h₁ : w.extractLsb' 40 8 = 0x01#8
  · simp [h₁]
  by_cases h₂ : w.extractLsb' 40 8 = 0x02#8
  · simp [h₂, imp_iff_not_or]
  · simp [h₁, h₂]

/-- Settles O7: each word is evaluated. -/
theorem specWordsDecode : Obligations.SpecWordsDecode := by
  unfold Obligations.SpecWordsDecode
  decide

end Sys2Proof

/-! PROOF. The response word, the answer to an illegal word, the MODE1 bytes bit by bit, the tick pairs and the channel
word. -/

namespace Sys2Proof.Machine

/-! ### The response word -/

theorem responseWord_status (r : Response) : (responseWord r).extractLsb' 0 4 = responseStatus r := by
  apply BitVec.eq_of_getLsbD_eq
  intro k hk
  simp [responseWord, hk, show k < 16 by omega, show k < 8 by omega]

theorem responseWord_reserved (r : Response) : (responseWord r).extractLsb' 4 4 = 0#4 := by
  apply BitVec.eq_of_getLsbD_eq
  intro k hk
  simp [responseWord, hk, show 4 + k < 16 by omega, show 4 + k < 8 by omega]

theorem responseWord_info (r : Response) : (responseWord r).extractLsb' 8 8 = responseInfo r := by
  apply BitVec.eq_of_getLsbD_eq
  intro k hk
  simp [responseWord, hk, show 8 + k < 16 by omega, BitVec.getLsbD_of_ge (responseStatus r) (8 + k) (by omega)]

/-- Only a `BusError` carries an `info` (R56). -/
theorem responseInfo_of_ne_busError {r : Response} (h : ∀ e, r ≠ .error (.busError e)) : responseInfo r = 0#8 := by
  unfold responseInfo
  split
  · exact absurd rfl (h _)
  · rfl

theorem responseInfo_busError (e : BusErr) : responseInfo (.error (.busError e)) = e := BitVec.setWidth_eq e

/-- Settles O8: the three fields of the word, and the tables of `info` and `status`. -/
theorem responseWordFields : Obligations.ResponseWordFields := by
  refine ⟨fun r => ⟨responseWord_reserved r, fun h => ?_⟩, responseWord_status _, responseWord_status _,
    responseWord_status _, responseWord_status _, responseWord_status _, responseWord_status _,
    fun e => ⟨responseWord_status _, ?_⟩⟩
  · rw [responseWord_info, responseInfo_of_ne_busError h]
  · rw [responseWord_info, responseInfo_busError]

/-! ### Illegal words -/

/-- In `IDLE` an illegal word is accepted and answered `IllegalCommand` (R55, R137). -/
theorem step_illegal {s : State} {w : CommandWord} {rest : List CommandWord} {why : IllegalReason}
    (hr : resetAsserted s = false) (hp : s.phase = .idle) (hc : s.env.commands = w :: rest)
    (hd : decode w = .illegal why) :
    step s = .next (raiseError .illegalCommand (acceptCommand w rest (countReset s))) := by
  simp [step_idle hr hp, idleStep, hc, hd, illegalCommand]

/-- Settles O10: accepting the word and raising the error append the two events and touch nothing else. -/
theorem illegalWordAnswered : Obligations.IllegalWordAnswered := by
  intro s w rest why hr hp hc hd
  rw [step_illegal hr hp hc hd]
  simp [raiseError, endCommand, acceptCommand, emit]

/-! ### The MODE1 bytes -/

theorem sleepByte_getLsbD (m0 : Byte) {k : Nat} (hk : k < 8) :
    (sleepByte m0).getLsbD k = (decide (k = 4) || decide (k ≠ 7) && m0.getLsbD k) := by
  interval_cases k <;> simp [sleepByte_eq]

theorem restoreByte_getLsbD (m0 : Byte) {k : Nat} (hk : k < 8) :
    (restoreByte m0).getLsbD k = (decide (k ≠ 4) && m0.getLsbD k) := by
  interval_cases k <;> simp [restoreByte_eq]

theorem restartByte_getLsbD (rv : Byte) {k : Nat} (hk : k < 8) :
    (restartByte rv).getLsbD k = (decide (k = 7) || rv.getLsbD k) := by
  interval_cases k <;> simp [restartByte_eq]

/-- Settles O20: each of the three bytes is known bit by bit. -/
theorem mode1WritesByBit : Obligations.Mode1WritesByBit := by
  intro m0
  have h7 : 7 < 8 := by decide
  have h4 : 4 < 8 := by decide
  refine ⟨sleepByte_getLsbD m0 h7, sleepByte_getLsbD m0 h4, restoreByte_getLsbD m0 h7, restoreByte_getLsbD m0 h4,
    restartByte_getLsbD _ h7, (restartByte_getLsbD _ h4).trans (restoreByte_sleep_clear m0),
    fun k hk hk7 hk4 => ⟨?_, ?_, ?_⟩⟩
  · simp [sleepByte_getLsbD m0 hk, hk7, hk4]
  · simp [restoreByte_getLsbD m0 hk, hk4]
  · simp [restartByte_getLsbD _ hk, restoreByte_getLsbD m0 hk, hk7, hk4]

/-! ### Tick pairs -/

theorem tickValue_of_legal {h : Byte} (l : Byte) (hh : tickHighLegal h = true) :
    tickValue h l = 256 * h.toNat + l.toNat := by
  have := (tickHighLegal_iff h).1 hh
  rw [tickValue, BitVec.extractLsb'_toNat, Nat.shiftRight_zero, Nat.mod_eq_of_lt (by omega)]

theorem tickHigh_toNat (t : Nat) : (tickHigh t).toNat = t / 256 % 16 := by
  rw [tickHigh, BitVec.toNat_ofNat]
  omega

theorem tickLow_toNat (t : Nat) : (tickLow t).toNat = t % 256 := by
  rw [tickLow, BitVec.toNat_ofNat]
  omega

theorem tickHigh_legal (t : Nat) : tickHighLegal (tickHigh t) = true := by
  rw [tickHighLegal_iff, tickHigh_toNat]
  omega

/-- The two bytes of a 12-bit value stand for it (R57). -/
theorem tickValue_tickHigh_tickLow {t : Nat} (ht : t ≤ 4095) : tickValue (tickHigh t) (tickLow t) = t := by
  rw [tickValue_of_legal _ (tickHigh_legal t), tickHigh_toNat, tickLow_toNat]
  omega

/-- Settles O34: a legal pair's bytes are the two base-256 digits of its value. -/
theorem tickPairs : Obligations.TickPairs := by
  refine ⟨fun h l => ?_, fun h l hh => ⟨tickValue_of_legal l hh, ?_, ?_⟩,
    fun t ht => ⟨tickHigh_legal t, tickValue_tickHigh_tickLow ht⟩, rfl, rfl⟩
  · have hl := l.isLt
    rw [tickHighLegal_iff]
    omega
  · have hl := l.isLt
    have hle := (tickHighLegal_iff h).1 hh
    apply BitVec.eq_of_toNat_eq
    rw [tickHigh_toNat, tickValue_of_legal l hh]
    omega
  · have hl := l.isLt
    apply BitVec.eq_of_toNat_eq
    rw [tickLow_toNat, tickValue_of_legal l hh]
    omega

/-! ### A whole SET_CHANNEL -/

/-- A phase whose request is answered takes two steps: the request goes out, and the phase acts on the answer (R12; log
entry 8). -/
theorem runSteps_issue_complete {s t : State} {q : Request} (n : Nat) (hres : s.env.resets = [])
    (hi : s.phase ≠ .idle) (ho : s.requested = false) (hq : phaseRequest s = some q)
    (hc : completePhase (issue q s) = .next t) : runSteps (n + 2) s = runSteps n t := by
  have hissue : step s = .next (issue q s) := by
    rw [step_issue (resetAsserted_of_no_resets s hres) hi ho, countReset_of_no_resets s hres, issuePhase_of_request hq]
  have hanswer : step (issue q s) = .next t := by
    have hres' : (issue q s).env.resets = [] := hres
    rw [step_complete (resetAsserted_of_no_resets _ hres') hi rfl, countReset_of_no_resets _ hres', hc]
  rw [runSteps_succ hissue, runSteps_succ hanswer]

/-- From its first phase a `SET_CHANNEL` whose four writes are answered `ok` runs to its response; the events are its
full trace, and the record stays (R117, R119). -/
theorem runSteps_setChannel {s : State} {a : DevAddr} {writes : List WriteReply} (n : Nat) (onH onL offH offL : Byte)
    (us elapsed : Nat) (m0 : Byte) (ha : s.dev.address = some a) (hres : s.env.resets = [])
    (he : s.env.writeReplies = .ok :: .ok :: .ok :: .ok :: writes) :
    runSteps 8 (enterPhase .scWriteOnL (channelLatches (channelBase n) onH onL offH offL) s) =
      .next { s with
        phase := .idle, lat := Latches.empty, requested := false, env := { s.env with writeReplies := writes },
        trace := s.trace ++ commandTrace (devByte a) us elapsed m0 (.setChannel n onH onL offH offL) } := by
  refine Eq.trans (runSteps_issue_complete 6 hres (by simp) rfl (writeRequest_of_address (channelReg _ 0) onL ha)
    (awaitWrite_ok (s := issue _ _) onLWritten he)) ?_
  refine Eq.trans (runSteps_issue_complete 4 hres (by simp) rfl (writeRequest_of_address (channelReg _ 1) onH ha)
    rfl) ?_
  refine Eq.trans (runSteps_issue_complete 2 hres (by simp) rfl (writeRequest_of_address (channelReg _ 2) offL ha)
    rfl) ?_
  refine Eq.trans (runSteps_issue_complete 0 hres (by simp) rfl (writeRequest_of_address (channelReg _ 3) offH ha)
    rfl) ?_
  simp [runSteps_zero, returnOk, endCommand, advance, answeredWrite, emit, issue, enterPhase, commandTrace, writeEvents]

/-- A successful write is the last to its register, and to no other (R32). -/
theorem byteWritten_append_writeEvents (dev reg r v : Byte) (evs : List Event) :
    byteWritten dev reg (evs ++ writeEvents dev r v) = if r = reg then some v else byteWritten dev reg evs := by
  simp [byteWritten, writeEvents]

theorem byteWritten_writeEvents (dev reg r v : Byte) :
    byteWritten dev reg (writeEvents dev r v) = if r = reg then some v else none :=
  byteWritten_append_writeEvents dev reg r v []

theorem byteWritten_append_response (dev reg : Byte) (r : Response) (evs : List Event) :
    byteWritten dev reg (evs ++ [.response r]) = byteWritten dev reg evs := by
  simp [byteWritten]

/-- The four registers of a channel are distinct (R49). -/
theorem channelReg_inj {n k k' : Nat} (hn : n ≤ 15) (hk : k ≤ 3) (hk' : k' ≤ 3) :
    channelReg (channelBase n) k = channelReg (channelBase n) k' ↔ k = k' := by
  rw [← BitVec.toNat_inj, channelReg_toNat hn hk, channelReg_toNat hn hk']
  omega

/-- What a successful `SET_CHANNEL` writes to each register of its channel (R116). -/
theorem byteWritten_setChannel {n k : Nat} (hn : n ≤ 15) (hk : k ≤ 3) (dev onH onL offH offL m0 : Byte)
    (us elapsed : Nat) :
    byteWritten dev (channelReg (channelBase n) k) (commandTrace dev us elapsed m0 (.setChannel n onH onL offH offL)) =
      [onL, onH, offL, offH][k]? := by
  simp only [commandTrace, byteWritten_append_response, byteWritten_append_writeEvents, byteWritten_writeEvents]
  interval_cases k <;> simp [channelReg_inj hn]

theorem append_toNat {k : Nat} (x : BitVec k) (b : Byte) : (x ++ b).toNat = x.toNat * 256 + b.toNat := by
  rw [BitVec.toNat_append, ← Nat.shiftLeft_add_eq_or_of_lt b.isLt, Nat.shiftLeft_eq]

/-- The channel word of two legal pairs (R58). -/
theorem channelWord_toNat {onH offH : Byte} (onL offL : Byte) (hon : tickHighLegal onH = true)
    (hoff : tickHighLegal offH = true) :
    (channelWord onH onL offH offL).toNat = tickValue offH offL * 65536 + tickValue onH onL := by
  rw [tickValue_of_legal offL hoff, tickValue_of_legal onL hon]
  simp only [channelWord, append_toNat]
  omega

/-- Settles O35: the run's events are the command's full trace, which writes each operand byte to its own register, and
the word of the four bytes is the channel word. -/
theorem channelWordValue : Obligations.ChannelWordValue := by
  intro s n onH onL offH offL a writes hp hb ha hn hon hoff hres he
  have hon' := (tickHighLegal_iff onH).2 hon
  have hoff' := (tickHighLegal_iff offH).2 hoff
  have hbyte (k : Nat) (hk : k ≤ 3) := byteWritten_setChannel hn hk (devByte a) onH onL offH offL 0#8 0 0
  simp only [channelReg_channelBase] at hbyte
  exact ⟨_, _, _, onL, onH, offL, offH,
    exec_setChannel_accepted onL offL hp hb ((channelLegal_iff n).2 hn) hon' hoff',
    runSteps_setChannel n onH onL offH offL 0 0 0#8 ha hres he, rfl,
    hbyte 0 (by decide), hbyte 1 (by decide), hbyte 2 (by decide), hbyte 3 (by decide),
    rfl, channelWord_toNat onL offL hon' hoff'⟩

end Sys2Proof.Machine

/-! PROOF. `CONSTRUCT`, from `IDLE` with a legal and with an illegal address, and while the block is busy. -/

namespace Sys2Proof.Machine

/-- A command that ends in its accepting step leaves `IDLE` only to come back to it: the phase does not change (R25). -/
theorem endCommand_of_idle {s : State} (r : Response) (hp : s.phase = .idle) :
    endCommand r s = { s with lat := Latches.empty, requested := false, trace := s.trace ++ [.response r] } := by
  simp [endCommand, hp]

/-- An idle block takes a legal address and answers `Ok` (R72). -/
theorem exec_construct_legal {s : State} {b : Byte} (hp : s.phase = .idle) (hb : addressLegal b = true) :
    exec (.construct b) s = .next (returnOk { s with dev := constructedDevice b }) := by
  rw [exec_construct, execConstruct, whenIdle_idle _ hp, if_pos hb]

/-- An idle block answers any other address with `ConfigError` (R75). -/
theorem exec_construct_illegal {s : State} {b : Byte} (hp : s.phase = .idle) (hb : ¬ addressLegal b = true) :
    exec (.construct b) s = .next (raiseError .configError s) := by
  rw [exec_construct, execConstruct, whenIdle_idle _ hp, if_neg hb]

/-- Settles O13: the busy block waits; the idle one ends the command with `Ok` or `ConfigError`, by the address check. -/
theorem constructEffect : Obligations.ConstructEffect := by
  intro s b
  refine ⟨exec_busy _, fun hp hle => ?_, fun hp hlt => ?_⟩
  · rw [exec_construct_legal hp ((addressLegal_iff b).2 hle), returnOk,
      endCommand_of_idle (s := { s with dev := constructedDevice b }) _ hp, constructedDevice, devAddrOf_eq]
  · have hb : ¬ addressLegal b = true := fun h => absurd ((addressLegal_iff b).1 h) (Nat.not_le.2 hlt)
    rw [exec_construct_illegal hp hb, raiseError, endCommand_of_idle _ hp]

end Sys2Proof.Machine

/-! PROOF. The prescale byte, and the SET commands on an unbound block. -/

namespace Sys2Proof.Machine

/-! ### The prescale byte -/

/-- What rounding to the nearest leaves: the quotient's multiple of the divisor is at most half a divisor away (R84). -/
theorem prescaleQuotient_bounds {f : Nat} (hf : 0 < f) :
    4096 * (f * prescaleQuotient f) ≤ 25000000 + 2048 * f ∧
      25000000 + 2048 * f < 4096 * (f * prescaleQuotient f) + 4096 * f := by
  have hdiv := Nat.div_add_mod (25000000 + 2048 * f) (4096 * f)
  have hmod := Nat.mod_lt (25000000 + 2048 * f) (show 0 < 4096 * f by omega)
  rw [← prescaleQuotient_eq, Nat.mul_assoc] at hdiv
  omega

/-- The quotient as a halved one, which shows that it does not grow with the frequency. -/
theorem prescaleQuotient_eq_half {f : Nat} (hf : 0 < f) : prescaleQuotient f = (25000000 / (2048 * f) + 1) / 2 := by
  rw [prescaleQuotient_eq, show 4096 * f = 2048 * f * 2 by omega, ← Nat.div_div_eq_div_mul,
    Nat.add_div_right _ (by omega)]

theorem prescaleQuotient_anti {f g : Nat} (hf : 0 < f) (h : f ≤ g) : prescaleQuotient g ≤ prescaleQuotient f := by
  have hdiv : 25000000 / (2048 * g) ≤ 25000000 / (2048 * f) := Nat.div_le_div_left (by omega) (by omega)
  rw [prescaleQuotient_eq_half hf, prescaleQuotient_eq_half (hf.trans_le h)]
  omega

/-- Settles O17: the quotient of the model is the nearest integer; a tie would make 2048 a divisor of 25 000 000. -/
theorem prescaleRoundsToNearest : Obligations.PrescaleRoundsToNearest := by
  intro f hf _
  refine ⟨prescaleQuotient f, ?_, prescaleByte_toNat f⟩
  have hbounds := prescaleQuotient_bounds hf
  have hcast : 4096 * (f : Int) * prescaleQuotient f = 4096 * ((f * prescaleQuotient f : Nat) : Int) := by
    push_cast; ring
  rw [hcast]
  have habs := abs_lt (a := (25000000 - 4096 * ((f * prescaleQuotient f : Nat) : Int))) (b := 2048 * (f : Int))
  omega

/-- Settles O18: the clamp and the rounded quotient keep the order, and from 24 to 1526 Hz the quotient lies between
its values at the ends, 254 and 4. -/
theorem prescaleRangeAndOrder : Obligations.PrescaleRangeAndOrder := by
  refine ⟨fun f _ => prescaleByte_legal f, fun f g hf hfg => ?_, fun f hlo hhi => ?_⟩
  · have hq := prescaleQuotient_anti hf hfg
    have := prescaleByte_toNat f
    have := prescaleByte_toNat g
    omega
  · have hmax : prescaleQuotient f ≤ 254 := prescaleQuotient_anti (f := 24) (by decide) hlo
    have hmin : 4 ≤ prescaleQuotient f := prescaleQuotient_anti (by omega) hhi
    have := prescaleByte_toNat f
    rw [← prescaleQuotient_eq]
    omega

/-- Settles O19: each frequency is evaluated. -/
theorem prescaleWorkedValues : Obligations.PrescaleWorkedValues := by
  unfold Obligations.PrescaleWorkedValues
  decide

/-! ### The SET commands on an unbound block -/

theorem exec_setPrescale_unbound {s : State} (f : Nat) (r : Bool) (hp : s.phase = .idle)
    (hu : s.dev.devState = .unbound) :
    exec (.setPrescaleFromFrequency f r) s = .next (raiseError .configError s) := by
  rw [exec_setPrescale, execSetPrescaleFromFrequency, whenIdle_idle _ hp, if_pos hu]

theorem exec_setChannel_unbound {s : State} (n : Nat) (onH onL offH offL : Byte) (hp : s.phase = .idle)
    (hu : s.dev.devState = .unbound) :
    exec (.setChannel n onH onL offH offL) s = .next (raiseError .configError s) := by
  rw [exec_setChannel, execSetChannel, whenIdle_idle _ hp, if_pos hu]

/-- Settles O14: the check for a Device comes first in both commands, and its error ends the command in `IDLE`. -/
theorem unboundSetIsConfigError : Obligations.UnboundSetIsConfigError := by
  intro s hp hu
  refine ⟨fun f r => ?_, fun n onH onL offH offL => ?_⟩
  · rw [exec_setPrescale_unbound f r hp hu, raiseError, endCommand_of_idle _ hp]
  · rw [exec_setChannel_unbound n onH onL offH offL hp hu, raiseError, endCommand_of_idle _ hp]

end Sys2Proof.Machine

/-! PROOF. The phases of `SET_PRESCALE_FROM_FREQUENCY`. -/

namespace Sys2Proof.Machine

/-! ### What each phase waits for, and what it does on the answer -/

section
variable {s : State} {a : DevAddr} {v : Byte}

theorem phaseRequest_readMode1 (hp : s.phase = .spReadMode1) (ha : s.dev.address = some a) :
    phaseRequest s = some (.read (devByte a) regMode1) := by
  simp [phaseRequest, hp, readRequest, ha]

theorem phaseRequest_writeSleep (hp : s.phase = .spWriteSleep) (ha : s.dev.address = some a) (hv : s.lat.s = some v) :
    phaseRequest s = some (.write (devByte a) regMode1 v) := by
  simp [phaseRequest, hp, writeRequest, ha, hv]

theorem phaseRequest_writePrescale (hp : s.phase = .spWritePrescale) (ha : s.dev.address = some a)
    (hv : s.lat.p = some v) : phaseRequest s = some (.write (devByte a) regPrescale v) := by
  simp [phaseRequest, hp, writeRequest, ha, hv]

theorem phaseRequest_writeRestore (hp : s.phase = .spWriteRestore) (ha : s.dev.address = some a)
    (hv : s.lat.rv = some v) : phaseRequest s = some (.write (devByte a) regMode1 v) := by
  simp [phaseRequest, hp, writeRequest, ha, hv]

theorem phaseRequest_settle (hp : s.phase = .spSettle) : phaseRequest s = some (.delay s.cfg.settleUs) := by
  simp [phaseRequest, hp]

theorem phaseRequest_writeRestart (hp : s.phase = .spWriteRestart) (ha : s.dev.address = some a)
    (hv : s.lat.rs = some v) : phaseRequest s = some (.write (devByte a) regMode1 v) := by
  simp [phaseRequest, hp, writeRequest, ha, hv]

theorem completePhase_readMode1 (hp : s.phase = .spReadMode1) : completePhase s = awaitRead s mode1Read := by
  simp [completePhase, hp]

theorem completePhase_writeSleep (hp : s.phase = .spWriteSleep) : completePhase s = awaitWrite s sleepWritten := by
  simp [completePhase, hp]

theorem completePhase_writePrescale (hp : s.phase = .spWritePrescale) :
    completePhase s = awaitWrite s prescaleWritten := by
  simp [completePhase, hp]

theorem completePhase_writeRestore (hp : s.phase = .spWriteRestore) :
    completePhase s = awaitWrite s restoreWritten := by
  simp [completePhase, hp]

theorem completePhase_settle (hp : s.phase = .spSettle) : completePhase s = awaitDelay s settled := by
  simp [completePhase, hp]

theorem completePhase_writeRestart (hp : s.phase = .spWriteRestart) :
    completePhase s = awaitWrite s restartWritten := by
  simp [completePhase, hp]

end

theorem awaitRead_ok {s : State} {m0 : Byte} {rest : List ReadReply} (onOk : Byte → State → Result)
    (h : s.env.readReplies = .ok m0 :: rest) : awaitRead s onOk = onOk m0 (answeredRead s (.ok m0) rest) := by
  simp [awaitRead, h]

theorem awaitDelay_done {s : State} {extra : Nat} {rest : List Nat} (onDone : State → Result)
    (h : s.env.timerSlack = extra :: rest) : awaitDelay s onDone = onDone (answeredDelay s extra rest) := by
  simp [awaitDelay, h]

/-- The prescale write done, a restart asked for: the restore write is next (R92). -/
theorem prescaleWritten_restart {s : State} (hr : s.lat.restartAfter = some true) :
    prescaleWritten s = .next (advance .spWriteRestore s) := by
  simp [prescaleWritten, hr]

/-- What a successful `SET_PRESCALE_FROM_FREQUENCY` leaves when its last write is answered (R93). -/
def commitRecord (m p : Byte) (d : DevState) (s : State) : State :=
  returnOk { s with dev := { s.dev with mode1Cache := some m, prescaleCache := some p, devState := d } }

theorem commitPrescale_some (m p : Byte) (d : DevState) (s : State) :
    commitPrescale (some m) (some p) d s = .next (commitRecord m p d s) := rfl

/-- The prescale write done, no restart asked for: the record is committed asleep (R93). -/
theorem prescaleWritten_asleep {s : State} {m p : Byte} (hr : s.lat.restartAfter = some false)
    (hm : s.lat.s = some m) (hp : s.lat.p = some p) :
    prescaleWritten s = .next (commitRecord m p .sleeping s) := by
  simp [prescaleWritten, hr, hm, hp, commitPrescale_some]

/-- The restart write done: the record is committed active (R93). -/
theorem restartWritten_active {s : State} {m p : Byte} (hm : s.lat.rs = some m) (hp : s.lat.p = some p) :
    restartWritten s = .next (commitRecord m p .active s) := by
  simp [restartWritten, hm, hp, commitPrescale_some]

/-! ### The phases -/

/-- Settles O21: the phase asks for the read, and on the byte latches it with the three bytes made of it. -/
theorem readMode1Phase : Obligations.ReadMode1Phase := by
  intro s h hp hr
  have hi : s.phase ≠ .idle := by simp [hp]
  obtain ⟨a, ha⟩ := h.address_in_flight hi
  refine ⟨a, ha, fun ho => ?_, fun ho m0 rest he => ?_, fun ho e rest hfit he => ?_⟩
  · exact (step_issue hr hi ho).trans (issuePhase_of_request (phaseRequest_readMode1 hp ha))
  · rw [step_complete hr hi ho, completePhase_readMode1 (s := countReset s) hp, awaitRead_ok (s := countReset s) _ he]
    rfl
  · rw [step_complete hr hi ho, completePhase_readMode1 (s := countReset s) hp, awaitRead_err (s := countReset s) _ he,
      errorLines_of_fits (c := (countReset s).cfg) hfit]
    rfl

/-- Settles O25: the phase asks for the delay, and the timer's answer moves it on. -/
theorem settlePhase : Obligations.SettlePhase := by
  intro s hp hr
  have hi : s.phase ≠ .idle := by simp [hp]
  refine ⟨fun ho => ?_, fun ho extra rest he => ⟨s.cfg.settleUs + extra, Nat.le_add_right _ _, ?_⟩⟩
  · exact (step_issue hr hi ho).trans (issuePhase_of_request (phaseRequest_settle hp))
  · rw [step_complete hr hi ho, completePhase_settle (s := countReset s) hp,
      awaitDelay_done (s := countReset s) _ he]
    rfl

/-- Settles O22: the phase asks for the write of `S`. -/
theorem sleepWritePhase : Obligations.SleepWritePhase := by
  intro s h hp hr
  have hi : s.phase ≠ .idle := by simp [hp]
  obtain ⟨r, p, m0, _, hlat⟩ := h.latches_at hp
  obtain ⟨a, ha⟩ := h.address_in_flight hi
  have hreq := phaseRequest_writeSleep (v := sleepByte m0) hp ha (by simp [hlat])
  exact ⟨a, m0, ha, by simp [hlat], performsWrite_of_phase hr hi hreq (completePhase_writeSleep hp) fun _ => rfl⟩

/-- Settles O24: the phase asks for the write of `RV`. -/
theorem restoreWritePhase : Obligations.RestoreWritePhase := by
  intro s h hp hr
  have hi : s.phase ≠ .idle := by simp [hp]
  obtain ⟨p, m0, _, hlat⟩ := h.latches_at hp
  obtain ⟨a, ha⟩ := h.address_in_flight hi
  have hreq := phaseRequest_writeRestore (v := restoreByte m0) hp ha (by simp [hlat])
  exact ⟨a, m0, ha, by simp [hlat], performsWrite_of_phase hr hi hreq (completePhase_writeRestore hp) fun _ => rfl⟩

/-- Settles O23: the phase asks for the write of `P`; the latched `restart_after` tells what its `ok` does. -/
theorem prescaleWritePhase : Obligations.PrescaleWritePhase := by
  intro s h hp hr
  have hi : s.phase ≠ .idle := by simp [hp]
  obtain ⟨r, p, m0, _, hlat⟩ := h.latches_at hp
  obtain ⟨a, ha⟩ := h.address_in_flight hi
  have hreq := phaseRequest_writePrescale (v := p) hp ha (by simp [hlat])
  refine ⟨a, m0, p, r, ha, by simp [hlat], by simp [hlat], by simp [hlat],
    performsWrite_of_phase hr hi hreq (completePhase_writePrescale hp) fun rest => ?_⟩
  cases r
  · exact prescaleWritten_asleep (by simp [hlat]) (by simp [hlat, sleepByte_eq]) (by simp [hlat])
  · exact prescaleWritten_restart (by simp [hlat])

/-- Settles O26: the phase asks for the write of `RS`, and its `ok` commits the record. -/
theorem restartWritePhase : Obligations.RestartWritePhase := by
  intro s h hp hr
  have hi : s.phase ≠ .idle := by simp [hp]
  obtain ⟨p, m0, _, hlat⟩ := h.latches_at hp
  obtain ⟨a, ha⟩ := h.address_in_flight hi
  have hrs : s.lat.rs = some ((m0 &&& 0x6F#8) ||| 0x80#8) := by simp [hlat, restartByte_restoreByte]
  refine ⟨a, m0, p, ha, by simp [hlat], by simp [hlat],
    performsWrite_of_phase hr hi (phaseRequest_writeRestart hp ha hrs) (completePhase_writeRestart hp) fun rest => ?_⟩
  exact restartWritten_active hrs (by simp [hlat])

end Sys2Proof.Machine

/-! PROOF. Whole runs of `SET_PRESCALE_FROM_FREQUENCY`, to its `Ok` and to a failed transaction. -/

namespace Sys2Proof.Machine

/-! ### The two steps of a phase on its way through a command -/

/-- The block on its way through a command it began in `s`: in phase `ph`, its request not yet issued, with `env` left
of the environment and the events `evs` behind it. -/
def underway (s : State) (ph : Phase) (l : Latches) (env : Env) (evs : List Event) : State :=
  { s with phase := ph, lat := l, requested := false, env := env, trace := s.trace ++ evs }

theorem enterPhase_eq_underway (ph : Phase) (l : Latches) (s : State) :
    enterPhase ph l s = underway s ph l s.env [] := by
  simp [enterPhase, underway]

section
variable {s : State} {ph : Phase} {l : Latches} {env : Env} {evs : List Event} {n : Nat}

@[simp] theorem underway_cfg : (underway s ph l env evs).cfg = s.cfg := rfl

theorem answeredRead_underway (q : Request) (r : ReadReply) (rest : List ReadReply) :
    answeredRead (issue q (underway s ph l env evs)) r rest =
      underway s ph l { env with readReplies := rest } (evs ++ [.request q, .readReply r]) := by
  simp [answeredRead, emit, issue, underway]

theorem answeredWrite_underway (q : Request) (r : WriteReply) (rest : List WriteReply) :
    answeredWrite (issue q (underway s ph l env evs)) r rest =
      underway s ph l { env with writeReplies := rest } (evs ++ [.request q, .writeReply r]) := by
  simp [answeredWrite, emit, issue, underway]

theorem answeredDelay_underway (q : Request) (extra : Nat) (rest : List Nat) :
    answeredDelay (issue q (underway s ph l env evs)) extra rest =
      underway s ph l { env with timerSlack := rest } (evs ++ [.request q, .delayDone (s.cfg.settleUs + extra)]) := by
  simp [answeredDelay, emit, issue, underway]

/-- The read of MODE1 answered `ok(m0)`: the byte is latched and the sleep write is next (R86). -/
theorem runSteps_underway_readOk {a : DevAddr} {m0 : Byte} {rest : List ReadReply} (hres : env.resets = [])
    (ha : s.dev.address = some a) (hread : env.readReplies = .ok m0 :: rest) :
    runSteps (n + 2) (underway s .spReadMode1 l env evs) =
      runSteps n (underway s .spWriteSleep (latchMode1 m0 l) { env with readReplies := rest }
        (evs ++ readEvents (devByte a) m0)) := by
  have hq := phaseRequest_readMode1 (s := underway s .spReadMode1 l env evs) rfl ha
  have hc := awaitRead_ok (s := issue (.read (devByte a) regMode1) (underway s .spReadMode1 l env evs)) mode1Read hread
  rw [answeredRead_underway, ← completePhase_readMode1 rfl] at hc
  exact runSteps_issue_complete n hres (ne_idle_of_phaseRequest hq) rfl hq hc

/-- The read of MODE1 answered `err(e)`: `BusError(e)` ends the command (R94). -/
theorem runSteps_underway_readErr {a : DevAddr} {e : BusErr} {rest : List ReadReply} (hres : env.resets = [])
    (ha : s.dev.address = some a) (hread : env.readReplies = .err e :: rest) (hfit : s.cfg.ErrorFits e) :
    runSteps (n + 2) (underway s .spReadMode1 l env evs) =
      runSteps n (raiseError (.busError e) (underway s .spReadMode1 l { env with readReplies := rest }
        (evs ++ [.request (.read (devByte a) regMode1), .readReply (.err e)]))) := by
  have hq := phaseRequest_readMode1 (s := underway s .spReadMode1 l env evs) rfl ha
  have hc := completePhase_readErr (s := issue (.read (devByte a) regMode1) (underway s .spReadMode1 l env evs)) rfl
    hread
  rw [answeredRead_underway, issue_cfg, underway_cfg, errorLines_of_fits hfit] at hc
  exact runSteps_issue_complete n hres (ne_idle_of_phaseRequest hq) rfl hq hc

/-- The settle delay over: the restart write is next (R90). -/
theorem runSteps_underway_settled {extra : Nat} {rest : List Nat} (hres : env.resets = [])
    (hslack : env.timerSlack = extra :: rest) :
    runSteps (n + 2) (underway s .spSettle l env evs) =
      runSteps n (underway s .spWriteRestart l { env with timerSlack := rest }
        (evs ++ delayEvents s.cfg.settleUs (s.cfg.settleUs + extra))) := by
  have hq := phaseRequest_settle (s := underway s .spSettle l env evs) rfl
  have hc := awaitDelay_done (s := issue (.delay s.cfg.settleUs) (underway s .spSettle l env evs)) settled hslack
  rw [answeredDelay_underway, ← completePhase_settle rfl] at hc
  exact runSteps_issue_complete n hres (ne_idle_of_phaseRequest hq) rfl hq hc

variable {dev reg v : Byte}

/-- A write answered `ok`: the phase acts on it (R32). -/
theorem runSteps_underway_writeOk {rest : List WriteReply} {written : State → Result} (onOk : State → State)
    (hres : env.resets = []) (hq : phaseRequest (underway s ph l env evs) = some (.write dev reg v))
    (hw : env.writeReplies = .ok :: rest) (hc : ∀ t : State, t.phase = ph → completePhase t = awaitWrite t written)
    (hk : ∀ t : State, t.lat = l → written t = .next (onOk t)) :
    runSteps (n + 2) (underway s ph l env evs) =
      runSteps n (onOk (underway s ph l { env with writeReplies := rest } (evs ++ writeEvents dev reg v))) := by
  have hc := (hc (issue (.write dev reg v) (underway s ph l env evs)) rfl).trans (awaitWrite_ok written hw)
  rw [answeredWrite_underway, hk _ rfl] at hc
  exact runSteps_issue_complete n hres (ne_idle_of_phaseRequest hq) rfl hq hc

/-- A write answered `err(e)`: `BusError(e)` ends the command (R94). -/
theorem runSteps_underway_writeErr {e : BusErr} {rest : List WriteReply} (hres : env.resets = [])
    (hq : phaseRequest (underway s ph l env evs) = some (.write dev reg v)) (hw : env.writeReplies = .err e :: rest)
    (hr : ph ≠ .spReadMode1) (hd : ph ≠ .spSettle) (hfit : s.cfg.ErrorFits e) :
    runSteps (n + 2) (underway s ph l env evs) =
      runSteps n (raiseError (.busError e) (underway s ph l { env with writeReplies := rest }
        (evs ++ [.request (.write dev reg v), .writeReply (.err e)]))) := by
  have hi : ph ≠ .idle := ne_idle_of_phaseRequest hq
  have hc := completePhase_writeErr (s := issue (.write dev reg v) (underway s ph l env evs)) hi hr hd hw
  rw [answeredWrite_underway, issue_cfg, underway_cfg, errorLines_of_fits hfit] at hc
  exact runSteps_issue_complete n hres hi rfl hq hc

end

/-! ### As far as each write -/

/-- The events of the first three transactions, which are the same with and without a restart (R96). -/
def prescaleEvents (a m0 p : Byte) : List Event :=
  readEvents a m0 ++ writeEvents a regMode1 (sleepByte m0) ++ writeEvents a regPrescale p

section
variable {s : State} {a : DevAddr} {r : Bool} {p m0 : Byte} {reads : List ReadReply} {w : List WriteReply} {n : Nat}

/-- As far as the sleep write: MODE1 is read (R86). -/
theorem runSteps_to_writeSleep (ha : s.dev.address = some a) (hres : s.env.resets = [])
    (hread : s.env.readReplies = .ok m0 :: reads) :
    runSteps (n + 2) (enterPhase .spReadMode1 (prescaleLatches r p) s) =
      runSteps n (underway s .spWriteSleep (latchMode1 m0 (prescaleLatches r p)) { s.env with readReplies := reads }
        (readEvents (devByte a) m0)) := by
  rw [enterPhase_eq_underway]
  exact runSteps_underway_readOk hres ha hread

/-- As far as the prescale write: one write is answered `ok` (R87). -/
theorem runSteps_to_writePrescale (ha : s.dev.address = some a) (hres : s.env.resets = [])
    (hread : s.env.readReplies = .ok m0 :: reads) (hw : s.env.writeReplies = .ok :: w) :
    runSteps (n + 4) (enterPhase .spReadMode1 (prescaleLatches r p) s) =
      runSteps n (underway s .spWritePrescale (latchMode1 m0 (prescaleLatches r p))
        { s.env with readReplies := reads, writeReplies := w }
        (readEvents (devByte a) m0 ++ writeEvents (devByte a) regMode1 (sleepByte m0))) := by
  rw [runSteps_to_writeSleep ha hres hread]
  exact runSteps_underway_writeOk (advance .spWritePrescale) hres (phaseRequest_writeSleep rfl ha rfl) hw
    (fun _ => completePhase_writeSleep) fun _ _ => rfl

/-- As far as the restore write: two writes are answered `ok`, and a restart was asked for (R92). -/
theorem runSteps_to_writeRestore (ha : s.dev.address = some a) (hres : s.env.resets = [])
    (hread : s.env.readReplies = .ok m0 :: reads) (hw : s.env.writeReplies = .ok :: .ok :: w) :
    runSteps (n + 6) (enterPhase .spReadMode1 (prescaleLatches true p) s) =
      runSteps n (underway s .spWriteRestore (latchMode1 m0 (prescaleLatches true p))
        { s.env with readReplies := reads, writeReplies := w } (prescaleEvents (devByte a) m0 p)) := by
  rw [runSteps_to_writePrescale ha hres hread hw]
  exact runSteps_underway_writeOk (advance .spWriteRestore) hres (phaseRequest_writePrescale rfl ha rfl) rfl
    (fun _ => completePhase_writePrescale) fun _ hl => prescaleWritten_restart (by simp [hl])

/-- As far as the settle delay: three writes are answered `ok` (R89). -/
theorem runSteps_to_settle (ha : s.dev.address = some a) (hres : s.env.resets = [])
    (hread : s.env.readReplies = .ok m0 :: reads) (hw : s.env.writeReplies = .ok :: .ok :: .ok :: w) :
    runSteps (n + 8) (enterPhase .spReadMode1 (prescaleLatches true p) s) =
      runSteps n (underway s .spSettle (latchMode1 m0 (prescaleLatches true p))
        { s.env with readReplies := reads, writeReplies := w }
        (prescaleEvents (devByte a) m0 p ++ writeEvents (devByte a) regMode1 (restoreByte m0))) := by
  rw [runSteps_to_writeRestore ha hres hread hw]
  exact runSteps_underway_writeOk (advance .spSettle) hres (phaseRequest_writeRestore rfl ha rfl) rfl
    (fun _ => completePhase_writeRestore) fun _ _ => rfl

/-- As far as the restart write: the settle delay is over (R90). -/
theorem runSteps_to_writeRestart {extra : Nat} {slacks : List Nat} (ha : s.dev.address = some a)
    (hres : s.env.resets = []) (hread : s.env.readReplies = .ok m0 :: reads)
    (hw : s.env.writeReplies = .ok :: .ok :: .ok :: w) (hslack : s.env.timerSlack = extra :: slacks) :
    runSteps (n + 10) (enterPhase .spReadMode1 (prescaleLatches true p) s) =
      runSteps n (underway s .spWriteRestart (latchMode1 m0 (prescaleLatches true p))
        { s.env with readReplies := reads, writeReplies := w, timerSlack := slacks }
        (prescaleEvents (devByte a) m0 p ++ writeEvents (devByte a) regMode1 (restoreByte m0) ++
          delayEvents s.cfg.settleUs (s.cfg.settleUs + extra))) := by
  rw [runSteps_to_settle ha hres hread hw]
  exact runSteps_underway_settled hres hslack

/-- The whole command without a restart: the record is committed asleep (R93). -/
theorem runSteps_setPrescale_asleep (ha : s.dev.address = some a) (hres : s.env.resets = [])
    (hread : s.env.readReplies = .ok m0 :: reads) (hw : s.env.writeReplies = .ok :: .ok :: w) :
    runSteps 6 (enterPhase .spReadMode1 (prescaleLatches false p) s) =
      .next (commitRecord (sleepByte m0) p .sleeping
        (underway s .spWritePrescale (latchMode1 m0 (prescaleLatches false p))
          { s.env with readReplies := reads, writeReplies := w } (prescaleEvents (devByte a) m0 p))) := by
  rw [runSteps_to_writePrescale ha hres hread hw]
  exact runSteps_underway_writeOk (commitRecord (sleepByte m0) p .sleeping) hres (phaseRequest_writePrescale rfl ha rfl)
    rfl (fun _ => completePhase_writePrescale) fun _ hl =>
      prescaleWritten_asleep (by simp [hl]) (by simp [hl]) (by simp [hl])

/-- The whole command with a restart: the record is committed active (R93). -/
theorem runSteps_setPrescale_active {extra : Nat} {slacks : List Nat} (ha : s.dev.address = some a)
    (hres : s.env.resets = []) (hread : s.env.readReplies = .ok m0 :: reads)
    (hw : s.env.writeReplies = .ok :: .ok :: .ok :: .ok :: w) (hslack : s.env.timerSlack = extra :: slacks) :
    runSteps 12 (enterPhase .spReadMode1 (prescaleLatches true p) s) =
      .next (commitRecord (restartByte (restoreByte m0)) p .active
        (underway s .spWriteRestart (latchMode1 m0 (prescaleLatches true p))
          { s.env with readReplies := reads, writeReplies := w, timerSlack := slacks }
          (prescaleEvents (devByte a) m0 p ++ writeEvents (devByte a) regMode1 (restoreByte m0) ++
            delayEvents s.cfg.settleUs (s.cfg.settleUs + extra) ++
            writeEvents (devByte a) regMode1 (restartByte (restoreByte m0))))) := by
  rw [runSteps_to_writeRestart ha hres hread hw hslack]
  exact runSteps_underway_writeOk (commitRecord (restartByte (restoreByte m0)) p .active) hres
    (phaseRequest_writeRestart rfl ha rfl) rfl (fun _ => completePhase_writeRestart) fun _ hl =>
      restartWritten_active (by simp [hl]) (by simp [hl])

end

/-! ### The whole command -/

/-- Settles O27: the run as far as its last write, and the `ok` to that write, which commits the record. -/
theorem setPrescaleSuccess : Obligations.SetPrescaleSuccess := by
  intro s f r a m0 reads writes hc hp hb ha hlo hhi hres hread
  refine ⟨_, frequencyAccepted s f r hc hp hb hlo hhi, ?_, ?_⟩
  · rintro extra slacks rfl hslack hw
    refine (runSteps_setPrescale_active ha hres hread hw hslack).trans ?_
    rw [restartByte_restoreByte]
    simp [commitRecord, returnOk, endCommand, underway, prescaleEvents, readEvents, writeEvents, delayEvents, hp,
      devByte_eq, sleepByte_eq, restoreByte_eq]
  · rintro rfl hw
    refine (runSteps_setPrescale_asleep ha hres hread hw).trans ?_
    simp [commitRecord, returnOk, endCommand, underway, prescaleEvents, readEvents, writeEvents, hp, devByte_eq,
      sleepByte_eq]

/-- The command begun in `s` has ended in `t` with `BusError(e)`: the record is as it was, and after the events `evs`
come the failed reply to a write and the response (R94). -/
def FailedAfter (s t : State) (e : BusErr) (evs : List Event) : Prop :=
  t.dev = s.dev ∧ t.phase = .idle ∧ t.lat = Latches.empty ∧ t.requested = false ∧
    t.trace = s.trace ++ evs ++ [.writeReply (.err e), .response (.error (.busError e))]

/-- A run that reaches a write answered `err(e)` ends there, the request of that write being its last. -/
theorem runSteps_failedAfter {s t0 : State} {ph : Phase} {l : Latches} {env : Env} {evs : List Event} {k : Nat}
    {dev reg v : Byte} {e : BusErr} {rest : List WriteReply} (hfit : s.cfg.ErrorFits e)
    (hrun : runSteps k t0 = runSteps 2 (underway s ph l env evs)) (hres : env.resets = [])
    (hq : phaseRequest (underway s ph l env evs) = some (.write dev reg v)) (hw : env.writeReplies = .err e :: rest)
    (hr : ph ≠ .spReadMode1) (hd : ph ≠ .spSettle) :
    ∃ t, runSteps k t0 = .next t ∧ FailedAfter s t e (evs ++ [.request (.write dev reg v)]) :=
  ⟨_, hrun.trans (runSteps_underway_writeErr (n := 0) hres hq hw hr hd hfit), rfl, rfl, rfl, rfl, by simp [underway]⟩

/-- Settles O28: the run as far as the failed transaction, and `BusError`, which ends the command with the record as it
was; the events behind it are the first of the command's full trace. -/
theorem setPrescaleBusFailure : Obligations.SetPrescaleBusFailure := by
  intro s f r a e hc hp hb ha hlo hhi hres hfit
  refine ⟨enterPhase .spReadMode1 (prescaleLatches r (prescaleByte f)) s, frequencyAccepted s f r hc hp hb hlo hhi,
    fun reads hread => ?_, fun m0 reads extra slacks j writes hread hslack hj hw => ?_⟩
  · rw [enterPhase_eq_underway]
    refine ⟨_, runSteps_underway_readErr (n := 0) hres ha hread hfit, rfl, rfl, rfl, rfl, ?_⟩
    simp [underway, devByte_eq]
  · obtain rfl | rfl | rfl | rfl : j = 0 ∨ j = 1 ∨ j = 2 ∨ j = 3 := by split at hj <;> omega
    · cases r <;> exact runSteps_failedAfter hfit (runSteps_to_writeSleep ha hres hread) hres
        (phaseRequest_writeSleep rfl ha rfl) hw (by decide) (by decide)
    · cases r <;> exact runSteps_failedAfter hfit (runSteps_to_writePrescale ha hres hread hw) hres
        (phaseRequest_writePrescale rfl ha rfl) rfl (by decide) (by decide)
    · obtain rfl : r = true := by cases r <;> simp at hj ⊢
      exact runSteps_failedAfter hfit (runSteps_to_writeRestore ha hres hread hw) hres
        (phaseRequest_writeRestore rfl ha rfl) rfl (by decide) (by decide)
    · obtain rfl : r = true := by cases r <;> simp at hj ⊢
      exact runSteps_failedAfter hfit (runSteps_to_writeRestart ha hres hread hw (hslack rfl)) hres
        (phaseRequest_writeRestart rfl ha rfl) rfl (by decide) (by decide)

end Sys2Proof.Machine

/-! PROOF. `SET_CHANNEL`: its validation errors, its registers, its whole runs, and what it leaves alone. -/

namespace Sys2Proof.Machine

/-! ### The validation errors -/

section
variable {s : State} {n : Nat} {onH offH : Byte} (onL offL : Byte)

/-- A bound idle block answers an index above 15 with `InvalidChannel`, whatever the ticks are (R113, R134). -/
theorem exec_setChannel_invalidChannel (onH offH : Byte) (hp : s.phase = .idle) (hb : s.dev.devState ≠ .unbound)
    (hn : channelLegal n = false) :
    exec (.setChannel n onH onL offH offL) s = .next (raiseError .invalidChannel s) := by
  rw [exec_setChannel, execSetChannel, whenIdle_idle _ hp, if_neg hb, if_pos hn]

/-- Of a legal channel it answers a high byte above 0x0F, in either pair, with `InvalidTick` (R114, R135). -/
theorem exec_setChannel_invalidTick (hp : s.phase = .idle) (hb : s.dev.devState ≠ .unbound)
    (hn : channelLegal n = true) (ht : tickHighLegal onH = false ∨ tickHighLegal offH = false) :
    exec (.setChannel n onH onL offH offL) s = .next (raiseError .invalidTick s) := by
  rw [exec_setChannel, execSetChannel, whenIdle_idle _ hp, if_neg hb, if_neg (by simp [hn])]
  obtain hon | hoff := ht
  · rw [if_pos hon]
  · rw [if_pos hoff, ite_self]

end

theorem channelLegal_eq_false_iff (n : Nat) : channelLegal n = false ↔ 15 < n := by
  rw [← Bool.not_eq_true, channelLegal_iff, Nat.not_le]

theorem tickHighLegal_eq_false_iff (h : Byte) : tickHighLegal h = false ↔ 0x0F < h.toNat := by
  rw [← Bool.not_eq_true, tickHighLegal_iff, Nat.not_le]

/-- Settles O29: the channel check comes before the tick checks, and each error ends the command in `IDLE`. -/
theorem channelOrTickOutOfRange : Obligations.ChannelOrTickOutOfRange := by
  intro s n onH onL offH offL hp hb
  refine ⟨fun hn => ?_, fun hn ht => ?_⟩
  · rw [exec_setChannel_invalidChannel onL offL onH offH hp hb ((channelLegal_eq_false_iff n).2 hn), raiseError,
      endCommand_of_idle _ hp]
  · rw [← tickHighLegal_eq_false_iff, ← tickHighLegal_eq_false_iff] at ht
    rw [exec_setChannel_invalidTick onL offL hp hb ((channelLegal_iff n).2 hn) ht, raiseError,
      endCommand_of_idle _ hp]

/-! ### The registers -/

/-- The base register of a channel does not wrap (R115). -/
theorem channelBase_toNat {n : Nat} (hn : n ≤ 15) : (channelBase n).toNat = 0x06 + 4 * n := by
  rw [← channelReg_zero (channelBase n)]
  exact channelReg_toNat hn (Nat.zero_le 3)

/-- Settles O33: no register wraps, so a register gives its channel and its place there as quotient and remainder. -/
theorem channelRegisters : Obligations.ChannelRegisters := by
  refine ⟨fun n k hn hk => ⟨channelBase_toNat hn, channelReg_toNat hn hk, ?_⟩, fun n k n' k' hn hk hn' hk' h => ?_⟩
  · rw [channelReg_toNat hn hk]
    omega
  · have hnat := congrArg BitVec.toNat h
    rw [channelReg_toNat hn hk, channelReg_toNat hn' hk'] at hnat
    omega

/-! ### As far as each write -/

section
variable {s : State} {a : DevAddr} {ch n : Nat} {onH onL offH offL : Byte} {w : List WriteReply}

/-- As far as the ON_H write: one write is answered `ok` (R117). -/
theorem runSteps_to_writeOnH (ha : s.dev.address = some a) (hres : s.env.resets = [])
    (hw : s.env.writeReplies = .ok :: w) :
    runSteps (n + 2) (enterPhase .scWriteOnL (channelLatches (channelBase ch) onH onL offH offL) s) =
      runSteps n (underway s .scWriteOnH (channelLatches (channelBase ch) onH onL offH offL)
        { s.env with writeReplies := w } (writeEvents (devByte a) (channelReg (channelBase ch) 0) onL)) := by
  rw [enterPhase_eq_underway]
  exact runSteps_underway_writeOk (written := onLWritten) (advance .scWriteOnH) hres
    (writeRequest_of_address (channelReg (channelBase ch) 0) onL ha) hw
    (fun _ hp => by simp [completePhase, hp]) fun _ _ => rfl

/-- As far as the OFF_L write: two writes are answered `ok` (R117). -/
theorem runSteps_to_writeOffL (ha : s.dev.address = some a) (hres : s.env.resets = [])
    (hw : s.env.writeReplies = .ok :: .ok :: w) :
    runSteps (n + 4) (enterPhase .scWriteOnL (channelLatches (channelBase ch) onH onL offH offL) s) =
      runSteps n (underway s .scWriteOffL (channelLatches (channelBase ch) onH onL offH offL)
        { s.env with writeReplies := w }
        (writeEvents (devByte a) (channelReg (channelBase ch) 0) onL ++
          writeEvents (devByte a) (channelReg (channelBase ch) 1) onH)) := by
  rw [runSteps_to_writeOnH ha hres hw]
  exact runSteps_underway_writeOk (written := onHWritten) (advance .scWriteOffL) hres
    (writeRequest_of_address (channelReg (channelBase ch) 1) onH ha) rfl
    (fun _ hp => by simp [completePhase, hp]) fun _ _ => rfl

/-- As far as the OFF_H write: three writes are answered `ok` (R117). -/
theorem runSteps_to_writeOffH (ha : s.dev.address = some a) (hres : s.env.resets = [])
    (hw : s.env.writeReplies = .ok :: .ok :: .ok :: w) :
    runSteps (n + 6) (enterPhase .scWriteOnL (channelLatches (channelBase ch) onH onL offH offL) s) =
      runSteps n (underway s .scWriteOffH (channelLatches (channelBase ch) onH onL offH offL)
        { s.env with writeReplies := w }
        (writeEvents (devByte a) (channelReg (channelBase ch) 0) onL ++
          writeEvents (devByte a) (channelReg (channelBase ch) 1) onH ++
          writeEvents (devByte a) (channelReg (channelBase ch) 2) offL)) := by
  rw [runSteps_to_writeOffL ha hres hw]
  exact runSteps_underway_writeOk (written := offLWritten) (advance .scWriteOffH) hres
    (writeRequest_of_address (channelReg (channelBase ch) 2) offL ha) rfl
    (fun _ hp => by simp [completePhase, hp]) fun _ _ => rfl

/-- The run ends at the first write answered `err(e)`; the events before that answer are the first of the command's full
trace (R117). -/
theorem runSteps_setChannel_failedAfter {e : BusErr} {j : Nat} (us elapsed : Nat) (m0 : Byte) (hfit : s.cfg.ErrorFits e)
    (hj : j < 4) (ha : s.dev.address = some a) (hres : s.env.resets = [])
    (hw : s.env.writeReplies = List.replicate j .ok ++ .err e :: w) :
    ∃ t, runSteps (2 * j + 2) (enterPhase .scWriteOnL (channelLatches (channelBase ch) onH onL offH offL) s) = .next t ∧
      FailedAfter s t e
        ((commandTrace (devByte a) us elapsed m0 (.setChannel ch onH onL offH offL)).take (2 * j + 1)) := by
  obtain rfl | rfl | rfl | rfl : j = 0 ∨ j = 1 ∨ j = 2 ∨ j = 3 := by omega
  · exact runSteps_failedAfter hfit (congrArg (runSteps 2) (enterPhase_eq_underway ..)) hres
      (writeRequest_of_address (channelReg (channelBase ch) 0) onL ha) hw (by decide) (by decide)
  · exact runSteps_failedAfter hfit (runSteps_to_writeOnH ha hres hw) hres
      (writeRequest_of_address (channelReg (channelBase ch) 1) onH ha) rfl (by decide) (by decide)
  · exact runSteps_failedAfter hfit (runSteps_to_writeOffL ha hres hw) hres
      (writeRequest_of_address (channelReg (channelBase ch) 2) offL ha) rfl (by decide) (by decide)
  · exact runSteps_failedAfter hfit (runSteps_to_writeOffH ha hres hw) hres
      (writeRequest_of_address (channelReg (channelBase ch) 3) offH ha) rfl (by decide) (by decide)

end

/-! ### The whole command -/

/-- The full trace of a `SET_CHANNEL` in the spec's register numbers (R115, R117). -/
theorem commandTrace_setChannel (dev m0 onH onL offH offL : Byte) (us elapsed n : Nat) :
    commandTrace dev us elapsed m0 (.setChannel n onH onL offH offL) =
      [.request (.write dev (BitVec.ofNat 8 (0x06 + 4 * n)) onL), .writeReply .ok,
       .request (.write dev (BitVec.ofNat 8 (0x07 + 4 * n)) onH), .writeReply .ok,
       .request (.write dev (BitVec.ofNat 8 (0x08 + 4 * n)) offL), .writeReply .ok,
       .request (.write dev (BitVec.ofNat 8 (0x09 + 4 * n)) offH), .writeReply .ok, .response .ok] := by
  simp [commandTrace, writeEvents, channelReg_channelBase]

/-- Settles O32: the accepting step latches the operands, and the run is the one to the response, or the one to the
first failed write. -/
theorem setChannelWrites : Obligations.SetChannelWrites := by
  intro s n onH onL offH offL a hp hb ha hn hon hoff hres
  refine ⟨_, channelAccepted s n onH onL offH offL hp hb hn hon hoff, fun writes hw => ?_, fun j e writes hj hfit hw => ?_⟩
  · refine (runSteps_setChannel n onH onL offH offL 0 0 0#8 ha hres hw).trans ?_
    rw [commandTrace_setChannel, devByte_eq, hp]
  · obtain ⟨t, hrun, hdev, hphase, hlat, hreq, htr⟩ :=
      runSteps_setChannel_failedAfter (ch := n) (onH := onH) (onL := onL) (offH := offH) (offL := offL) 0 0 0#8 hfit hj
        ha hres hw
    refine ⟨t, hrun, hdev, hphase, hlat, hreq, htr.trans ?_⟩
    rw [commandTrace_setChannel, devByte_eq]
    interval_cases j <;> rfl

/-- Settles O36: the events of the run are the command's full trace, which depends on the state only through the
address. -/
theorem setChannelIdempotent : Obligations.SetChannelIdempotent := by
  intro s1 s2 n onH onL offH offL a w1 w2 hp1 hp2 hb1 hb2 ha1 ha2 hres1 hres2 hop hw1 hw2
  obtain ⟨⟨hn, hon⟩, hoff⟩ : (channelLegal n = true ∧ tickHighLegal onH = true) ∧ tickHighLegal offH = true := by
    simpa [operandsLegal] using hop
  refine ⟨_, _, _, _, commandTrace (devByte a) 0 0 0#8 (.setChannel n onH onL offH offL),
    exec_setChannel_accepted onL offL hp1 hb1 hn hon hoff, exec_setChannel_accepted onL offL hp2 hb2 hn hon hoff,
    runSteps_setChannel n onH onL offH offL 0 0 0#8 ha1 hres1 hw1,
    runSteps_setChannel n onH onL offH offL 0 0 0#8 ha2 hres2 hw2, rfl, rfl, rfl, fun q hq => ?_⟩
  simp only [commandTrace_setChannel, List.mem_cons, Event.request.injEq, reduceCtorEq, List.not_mem_nil, false_or,
    or_false] at hq
  obtain rfl | rfl | rfl | rfl := hq <;> exact ⟨_, _, _, rfl⟩

/-! ### What it leaves alone -/

/-- The accepting step writes no field of the record, and its only event, if any, is an error response (R119). -/
theorem execSetChannel_frame {n : Nat} {onH onL offH offL : Byte} {s t : State}
    (h : execSetChannel n onH onL offH offL s = .next t) :
    t.dev = s.dev ∧ (t.trace = s.trace ∨ ∃ k, t.trace = s.trace ++ [.response (.error k)]) := by
  obtain ⟨_, rfl⟩ | ⟨_, _, rfl⟩ | ⟨_, _, _, rfl⟩ | ⟨_, _, _, _, rfl⟩ | ⟨_, _, _, _, _, rfl⟩ := execSetChannel_cases h
  · exact ⟨rfl, .inl rfl⟩
  · exact ⟨rfl, .inr ⟨_, rfl⟩⟩
  · exact ⟨rfl, .inr ⟨_, rfl⟩⟩
  · exact ⟨rfl, .inr ⟨_, rfl⟩⟩
  · exact ⟨rfl, .inl rfl⟩

section
variable {s t : State} (hp : s.phase ∈ [Phase.scWriteOnL, .scWriteOnH, .scWriteOffL, .scWriteOffH])
include hp

/-- A completed channel phase commits nothing (R119). -/
theorem Completed.dev_of_channelPhase (h : Completed s t) : t.dev = s.dev := by
  cases h with
  | committedAsleep _ _ _ hp' | committedActive _ _ _ hp' => simp [hp'] at hp
  | waited ht | readOk _ _ _ _ ht | readErr _ _ _ _ ht | writeErr _ _ _ _ _ _ ht | delayDone _ _ _ _ ht
  | wentOn _ _ _ _ ht | toRestore _ _ _ _ ht | channelDone _ _ _ ht => simp [ht]

/-- A step in a channel phase, if it is no reset, writes no field of the record (R119). -/
theorem step_dev_of_channelPhase (hr : resetAsserted s = false) (h : step s = .next t) : t.dev = s.dev := by
  obtain ⟨hr', _⟩ | ⟨_, hi, _⟩ | ⟨_, _, _, q, _, rfl⟩ | ⟨_, _, _, h⟩ := step_cases h
  · simp [hr] at hr'
  · simp [hi] at hp
  · rfl
  · exact (completePhase_cases h).dev_of_channelPhase (s := countReset s) hp

/-- A channel phase asks for the write of one of the four registers (R12). -/
theorem phaseRequest_of_channelPhase :
    ∃ k v, k ≤ 3 ∧ phaseRequest s = writeRequest s (channelRegister s k) v := by
  simp only [List.mem_cons, List.not_mem_nil, or_false] at hp
  obtain hp | hp | hp | hp := hp
  · exact ⟨0, s.lat.onL, by decide, by simp [phaseRequest, hp]⟩
  · exact ⟨1, s.lat.onH, by decide, by simp [phaseRequest, hp]⟩
  · exact ⟨2, s.lat.offL, by decide, by simp [phaseRequest, hp]⟩
  · exact ⟨3, s.lat.offH, by decide, by simp [phaseRequest, hp]⟩

/-- The request of a channel phase is a write to a register of a legal channel (R36, R116). -/
theorem Inv.channelPhase_request {q : Request} (h : Inv s) (hq : phaseRequest s = some q) :
    ∃ dev n k v, n ≤ 15 ∧ k ≤ 3 ∧ q = .write dev (channelReg (channelBase n) k) v := by
  obtain ⟨n, onH, onL, offH, offL, hn, _, _, hlat⟩ := (latchesOk_channel hp s.lat).1 h.latchesOk
  obtain ⟨k, v, hk, hreq⟩ := phaseRequest_of_channelPhase hp
  obtain ⟨a, reg, b, _, hreg, _, rfl⟩ := writeRequest_eq_some (hreq.symm.trans hq)
  obtain rfl : channelReg (channelBase n) k = reg := by simpa [channelRegister, hlat] using hreg
  exact ⟨_, n, k, b, (channelLegal_iff n).1 hn, hk, rfl⟩

end

/-- The channel registers run from 0x06 to 0x45 (R49). -/
theorem channelReg_ne {n k : Nat} {reg : Byte} (hn : n ≤ 15) (hk : k ≤ 3) (h : reg.toNat < 0x06 ∨ 0x45 < reg.toNat) :
    channelReg (channelBase n) k ≠ reg := by
  rintro rfl
  rw [channelReg_toNat hn hk] at h
  omega

/-- Settles O37: the accepting step ends in an error or goes to the first phase, and each phase asks only for its own
register. -/
theorem setChannelKeepsRecord : Obligations.SetChannelKeepsRecord := by
  refine ⟨fun s t n onH onL offH offL h => ?_, fun s t w rest n onH onL offH offL evs hr hi hc hd h htr => ⟨?_, ?_⟩,
    fun s t evs hinv hp hr h htr => ⟨step_dev_of_channelPhase hp hr h, fun q hq => ?_⟩⟩
  · obtain ⟨hdev, htr | ⟨k, htr⟩⟩ := execSetChannel_frame h
    · exact ⟨hdev, [], by simp [htr], by simp⟩
    · exact ⟨hdev, _, htr, by simp⟩
  · rw [step_accepts hr hi hc hd] at h
    exact (execSetChannel_frame h).1
  · obtain ⟨evs', htr', hev⟩ := step_stepEvents h
    obtain rfl : evs = evs' := List.append_cancel_left (htr.symm.trans htr')
    exact hev.request_not_mem hi
  · obtain ⟨dev, n, k, v, hn, hk, rfl⟩ := hinv.channelPhase_request hp (phaseRequest_of_issued h htr hq)
    exact ⟨dev, _, v, rfl, channelReg_ne hn hk (by decide), channelReg_ne hn hk (by decide),
      channelReg_ne hn hk (by decide)⟩

end Sys2Proof.Machine

/-! PROOF. Errors: what an error return leaves, the validation errors, and `BusError`. -/

namespace Sys2Proof.Machine

/-! ### The error return -/

/-- The error return of `k` (R138): one event was logged, no request, nothing of the record was written, and `k` was
raised. -/
def Raised (s t : State) (k : ErrorKind) (ev : Event) : Prop :=
  (∀ q, ev ≠ .request q) ∧ ∃ u : State, u.dev = s.dev ∧ u.cfg = s.cfg ∧ u.trace = s.trace ++ [ev] ∧ t = raiseError k u

section
variable {s t : State} {evs : List Event} {k : ErrorKind}

/-- An idle step that returns an error rejects the word it accepts. -/
theorem IdleOutcome.raised (h : IdleOutcome s t) (htr : t.trace = s.trace ++ evs ++ [.response (.error k)]) :
    ∃ w, Raised s t k (.accepted w) := by
  have hlast : t.trace.getLast? = some (.response (.error k)) := by simp [htr]
  cases h with
  | waited ht => simp [ht] at htr
  | illegal w rest why hc hd ht =>
    obtain rfl : .illegalCommand = k := by simpa [ht] using hlast
    exact ⟨w, by simp, acceptCommand w rest s, rfl, rfl, rfl, ht⟩
  | rejected w rest i k' hc hd hk ht =>
    obtain rfl : k' = k := by simpa [ht] using hlast
    exact ⟨w, by simp, acceptCommand w rest s, rfl, rfl, rfl, ht⟩
  | constructed _ _ _ _ _ _ ht | prescaleStarted _ _ _ _ _ _ _ _ ht
  | channelStarted _ _ _ _ _ _ _ _ _ _ _ _ _ ht => simp [ht] at hlast

/-- A completed phase returns no other error than `BusError`, on the transport's answer. -/
theorem Completed.raised (h : Completed s t) (htr : t.trace = s.trace ++ evs ++ [.response (.error k)]) :
    (∃ e, k = .busError e) ∧ ∃ ev, Raised s t k ev := by
  have hlast : t.trace.getLast? = some (.response (.error k)) := by simp [htr]
  cases h with
  | waited ht => simp [ht] at htr
  | readErr e rest hp he ht =>
    obtain rfl : .busError (errorLines s.cfg e) = k := by simpa [ht] using hlast
    exact ⟨⟨_, rfl⟩, .readReply _, by simp, answeredRead s _ rest, rfl, rfl, rfl, ht⟩
  | writeErr e rest hr hs hi he ht =>
    obtain rfl : .busError (errorLines s.cfg e) = k := by simpa [ht] using hlast
    exact ⟨⟨_, rfl⟩, .writeReply _, by simp, answeredWrite s _ rest, rfl, rfl, rfl, ht⟩
  | readOk _ _ _ _ ht | delayDone _ _ _ _ ht | wentOn _ _ _ _ ht | toRestore _ _ _ _ ht
  | committedAsleep _ _ _ _ _ _ _ _ ht | committedActive _ _ _ _ _ _ _ ht | channelDone _ _ _ ht =>
    simp [ht] at hlast

/-- The one event logged before the response is all the step adds. -/
theorem Raised.eq_singleton {ev : Event} (h : Raised s t k ev)
    (htr : t.trace = s.trace ++ evs ++ [.response (.error k)]) : evs = [ev] := by
  obtain ⟨_, u, _, _, hu, rfl⟩ := h
  rw [raiseError_trace, hu] at htr
  exact (List.append_cancel_left (List.append_cancel_right htr)).symm

/-- A step that returns an error raised it after one event: the acceptance of the word in `IDLE`, or else the error is
a `BusError` (R138, R139). -/
theorem step_raised (h : step s = .next t) (htr : t.trace = s.trace ++ evs ++ [.response (.error k)]) :
    ∃ ev, evs = [ev] ∧ Raised s t k ev ∧
      ((s.phase = .idle ∧ ∃ w, ev = .accepted w) ∨ ∃ e, k = .busError e) := by
  have hlast : t.trace.getLast? = some (.response (.error k)) := by simp [htr]
  obtain ⟨_, rfl⟩ | ⟨_, hp, h⟩ | ⟨_, _, _, q, _, rfl⟩ | ⟨_, _, _, h⟩ := step_cases h
  · simp at hlast
  · obtain ⟨w, hr⟩ := (idleStep_outcome (s := countReset s) hp h).raised htr
    exact ⟨_, hr.eq_singleton htr, hr, .inl ⟨hp, w, rfl⟩⟩
  · simp at hlast
  · obtain ⟨hk, ev, hr⟩ := (completePhase_cases h).raised htr
    exact ⟨ev, hr.eq_singleton htr, hr, .inr hk⟩

end

/-- Settles O38: a step that returns an error raised it after one event, which is no request. -/
theorem errorReturnEffect : Obligations.ErrorReturnEffect := by
  intro s t evs k h htr
  obtain ⟨ev, rfl, ⟨hno, u, hdev, hcfg, _, rfl⟩, _⟩ := step_raised h htr
  exact ⟨hdev, hcfg, rfl, rfl, rfl, fun q hq => hno q (List.mem_singleton.1 hq).symm⟩

/-- Settles O39: an error return that is no `BusError` is the one of an idle step. -/
theorem validationErrorIssuesNothing : Obligations.ValidationErrorIssuesNothing := by
  intro s t evs k h hk htr
  obtain ⟨ev, rfl, _, ⟨hp, w, rfl⟩ | ⟨e, hbus⟩⟩ := step_raised h htr
  · exact ⟨hp, w, rfl⟩
  · exact absurd hbus (hk e)

/-- Settles O40: a value of `BUSERR_W` bits is its own low `BUSERR_W` bits, and every `BusError` comes from an `err`
reply. -/
theorem busErrorVerbatim : Obligations.BusErrorVerbatim := by
  refine ⟨fun s e hfit hr hq hi hd hread hwrite => ?_, fun s t evs e h htr => ?_⟩
  · obtain ⟨t, ev, e', hstep, htr, he'⟩ := busErrorWidth.2 s e hr hq hi hd hread hwrite
    obtain rfl : e' = e := BitVec.eq_of_toNat_eq (he'.trans (Nat.mod_eq_of_lt hfit))
    exact ⟨t, ev, hstep, htr, responseInfo_busError e'⟩
  · obtain ⟨_, _, ⟨hp, hevs, _⟩ | ⟨hi, hp, hd, hevs, _⟩⟩ := step_busError h htr
    · exact ⟨by simp [hp], by simp [hp], .inl ⟨hp, hevs⟩⟩
    · exact ⟨hi, hd, .inr ⟨hp, hevs⟩⟩

/-! ### The frequency limits -/

/-- A bound idle block answers a frequency outside the limits with `InvalidFrequency` (R83, R133). -/
theorem exec_setPrescale_invalidFrequency {s : State} {f : Nat} (r : Bool) (hp : s.phase = .idle)
    (hb : s.dev.devState ≠ .unbound) (hf : frequencyLegal s.cfg f = false) :
    exec (.setPrescaleFromFrequency f r) s = .next (raiseError .invalidFrequency s) := by
  rw [exec_setPrescale, execSetPrescaleFromFrequency, whenIdle_idle _ hp, if_neg hb, if_pos hf]

theorem frequencyLegal_eq_false_iff (c : Config) (f : Nat) :
    frequencyLegal c f = false ↔ f < c.freqMinHz ∨ c.freqMaxHz < f := by
  rw [← Bool.not_eq_true, frequencyLegal_iff, not_and_or, Nat.not_le, Nat.not_le]

/-- Settles O15: the limits are checked right after the Device, and the error ends the command in `IDLE`. -/
theorem frequencyOutsideLimits : Obligations.FrequencyOutsideLimits := by
  intro s f r hp hb hf
  rw [exec_setPrescale_invalidFrequency r hp hb ((frequencyLegal_eq_false_iff s.cfg f).2 hf), raiseError,
    endCommand_of_idle _ hp]

end Sys2Proof.Machine

/-! PROOF. A command in flight ends: every step adds the next event of its command, and no command has more than twelve
events before its response. -/

namespace Sys2Proof.Machine

/-! ### How far a command has come, and the answers it still needs -/

/-- How many events of its command are over, the open request counted (R12). -/
def eventsDone (s : State) : Nat := eventsBefore s.phase + if s.requested then 1 else 0

theorem eventsDone_of_requested {s : State} (h : s.requested = true) : eventsDone s = eventsBefore s.phase + 1 := by
  simp [eventsDone, h]

theorem eventsDone_of_not_requested {s : State} (h : s.requested = false) : eventsDone s = eventsBefore s.phase := by
  simp [eventsDone, h]

/-- The longest command has twelve events, so at most eleven are over while it is in flight (R96). -/
theorem eventsDone_lt (s : State) : eventsDone s < 12 := by
  have hbefore : eventsBefore s.phase ≤ 10 := by cases s.phase <;> decide
  unfold eventsDone
  split <;> omega

/-- How many writes a command can still ask for, its current phase counted (R12). -/
def writesLeft : Phase → Nat
  | .idle => 0
  | .spReadMode1 | .spWriteSleep => 4
  | .spWritePrescale => 3
  | .spWriteRestore => 2
  | .spSettle | .spWriteRestart => 1
  | .scWriteOnL => 4
  | .scWriteOnH => 3
  | .scWriteOffL => 2
  | .scWriteOffH => 1

/-- There is an answer for every request the command in flight can still make, and no reset comes. -/
structure AnswersLeft (s : State) : Prop where
  reads : s.phase = .spReadMode1 → s.env.readReplies ≠ []
  writes : writesLeft s.phase ≤ s.env.writeReplies.length
  delays : s.phase ≠ .spWriteRestart → s.env.timerSlack ≠ []
  resets : s.env.resets = []

theorem AnswersReady.answersLeft {s : State} (h : AnswersReady s) : AnswersLeft s := by
  obtain ⟨hread, hwrite, hdelay, hres⟩ := h
  have hle : writesLeft s.phase ≤ 4 := by cases s.phase <;> decide
  exact ⟨fun _ => List.ne_nil_of_length_pos hread, hle.trans hwrite, fun _ => List.ne_nil_of_length_pos hdelay, hres⟩

/-- A writing phase has an answer to its own write. -/
theorem AnswersLeft.writeReplies_ne_nil {s : State} (h : AnswersLeft s) (hw : 0 < writesLeft s.phase) :
    s.env.writeReplies ≠ [] :=
  List.ne_nil_of_length_pos (hw.trans_le h.writes)

/-- The phases that an answered write may lead on from, each with its successor (R12). -/
abbrev writeSuccessors : List (Phase × Phase) := (.spWritePrescale, .spWriteRestore) :: plainSuccessors

theorem writeSuccessors_table : ∀ x ∈ writeSuccessors,
    x.2 ≠ .idle ∧ x.2 ≠ .spReadMode1 ∧ x.1 ≠ .spWriteRestart ∧ eventsBefore x.2 = eventsBefore x.1 + 2 ∧
      writesLeft x.2 + 1 ≤ writesLeft x.1 := by decide

/-! ### An open request is answered -/

section
variable {s t : State}

theorem awaitRead_requested {k : Byte → State → Result} (hne : s.env.readReplies ≠ [])
    (hk : ∀ b u, k b u = .next t → t.requested = false) (h : awaitRead s k = .next t) : t.requested = false := by
  obtain ⟨hnil, _⟩ | ⟨b, rest, _, h⟩ | ⟨e, rest, _, h⟩ := awaitRead_cases h
  · exact absurd hnil hne
  · exact hk _ _ h
  · cases h; rfl

theorem awaitWrite_requested {k : State → Result} (hne : s.env.writeReplies ≠ [])
    (hk : ∀ u, k u = .next t → t.requested = false) (h : awaitWrite s k = .next t) : t.requested = false := by
  obtain ⟨hnil, _⟩ | ⟨rest, _, h⟩ | ⟨e, rest, _, h⟩ := awaitWrite_cases h
  · exact absurd hnil hne
  · exact hk _ h
  · cases h; rfl

theorem awaitDelay_requested {k : State → Result} (hne : s.env.timerSlack ≠ [])
    (hk : ∀ u, k u = .next t → t.requested = false) (h : awaitDelay s k = .next t) : t.requested = false := by
  obtain ⟨hnil, _⟩ | ⟨extra, rest, _, h⟩ := awaitDelay_cases h
  · exact absurd hnil hne
  · exact hk _ h

theorem requested_of_commitPrescale {mode1 prescale : Option Byte} {d : DevState}
    (h : commitPrescale mode1 prescale d s = .next t) : t.requested = false := by
  obtain ⟨_, _, _, _, rfl⟩ := commitPrescale_next h
  rfl

theorem requested_of_prescaleWritten (h : prescaleWritten s = .next t) : t.requested = false := by
  unfold prescaleWritten at h
  split at h
  · cases h; rfl
  · exact requested_of_commitPrescale h
  · cases h

/-- With its answer there, no phase keeps waiting: nothing stands open after it (R12). -/
theorem AnswersLeft.completePhase_requested (ha : AnswersLeft s) (hi : s.phase ≠ .idle)
    (h : completePhase s = .next t) : t.requested = false := by
  unfold completePhase at h
  split at h
  case h_1 hp => exact absurd hp hi
  case h_2 hp => exact awaitRead_requested (ha.reads hp) (fun b u h => by cases h; rfl) h
  case h_4 hp =>
    exact awaitWrite_requested (ha.writeReplies_ne_nil (by simp [hp, writesLeft]))
      (fun u => requested_of_prescaleWritten) h
  case h_6 hp => exact awaitDelay_requested (ha.delays (by simp [hp])) (fun u h => by cases h; rfl) h
  case h_7 hp =>
    exact awaitWrite_requested (ha.writeReplies_ne_nil (by simp [hp, writesLeft]))
      (fun u => requested_of_commitPrescale) h
  all_goals
    rename_i hp
    exact awaitWrite_requested (ha.writeReplies_ne_nil (by simp [hp, writesLeft])) (fun u h => by cases h; rfl) h

end

/-! ### Each step goes on or ends the command -/

/-- From `s` to `t` the command in flight goes on: one more of its events is over, and none was a response. -/
structure GoesOn (s t : State) : Prop where
  inFlight : t.phase ≠ .idle
  eventsDone : eventsDone t = eventsDone s + 1
  answersLeft : AnswersLeft t
  trace : ∃ ev, t.trace = s.trace ++ [ev] ∧ ∀ r, ev ≠ .response r

/-- From `s` to `t` the command in flight ends: the block is idle again, and the last event since `s`, and no other, is
a response (R142). -/
structure Ends (s t : State) : Prop where
  idle : t.phase = .idle
  quiet : t.requested = false
  trace : ∃ evs r, t.trace = s.trace ++ evs ++ [.response r] ∧ ∀ r', Event.response r' ∉ evs

section
variable {s t u : State}

theorem GoesOn.trans_ends (h : GoesOn s t) (h' : Ends t u) : Ends s u := by
  obtain ⟨ev, htr, hev⟩ := h.trace
  obtain ⟨evs, r, htr', hevs⟩ := h'.trace
  refine ⟨h'.idle, h'.quiet, ev :: evs, r, by simp [htr', htr], fun r' hr' => ?_⟩
  obtain hr' | hr' := List.mem_cons.1 hr'
  · exact hev r' hr'.symm
  · exact hevs r' hr'

/-- Whatever ends a command after a reply ends it with one response. -/
theorem Ends.of_endCommand {ev : Event} (r : Response) (htr : u.trace = s.trace ++ [ev]) (hev : isReply ev = true) :
    Ends s (endCommand r u) :=
  ⟨rfl, rfl, [ev], r, by rw [endCommand_trace, htr], fun r' hr' => by
    obtain rfl := List.mem_singleton.1 hr'
    cases hev⟩

/-- A request is the next event of the command. -/
theorem GoesOn.issue (q : Request) (ha : AnswersLeft s) (hi : s.phase ≠ .idle) (hq : s.requested = false) :
    GoesOn s (issue q s) :=
  ⟨hi, by rw [eventsDone_of_requested rfl, eventsDone_of_not_requested hq, issue_phase],
   ⟨ha.reads, ha.writes, ha.delays, ha.resets⟩, _, rfl, by simp⟩

/-- An answered write that leads on is the next event of the command. -/
theorem GoesOn.writeOk {p : Phase} {rest : List WriteReply} (ha : AnswersLeft s) (hq : s.requested = true)
    (hp : (s.phase, p) ∈ writeSuccessors) (he : s.env.writeReplies = .ok :: rest) :
    GoesOn s (advance p (answeredWrite s .ok rest)) := by
  obtain ⟨hi, hr, hd, hev, hw⟩ := writeSuccessors_table (s.phase, p) hp
  refine ⟨hi, ?_, ⟨fun h => absurd h hr, ?_, fun _ => ha.delays hd, ha.resets⟩, _, rfl, by simp⟩
  · rw [eventsDone_of_requested hq, eventsDone_of_not_requested rfl, advance_phase, hev]
  · have hlen := ha.writes
    rw [he, List.length_cons] at hlen
    exact Nat.le_of_succ_le_succ (hw.trans hlen)

/-- A completed phase that waits no longer goes on or ends the command. -/
theorem Completed.goesOn_or_ends (h : Completed s t) (ha : AnswersLeft s) (hq : s.requested = true)
    (hq' : t.requested = false) : GoesOn s t ∨ Ends s t := by
  cases h with
  | waited ht => simp [ht, hq] at hq'
  | readOk m0 rest hp he ht =>
    subst ht
    refine .inl ⟨by simp, ?_, ⟨by simp, ?_, fun _ => ha.delays (by simp [hp]), ha.resets⟩, _, rfl, by simp⟩
    · rw [eventsDone_of_requested hq, eventsDone_of_not_requested rfl, advance_phase, hp]; rfl
    · simpa [hp, writesLeft] using ha.writes
  | delayDone extra rest hp he ht =>
    subst ht
    refine .inl ⟨by simp, ?_, ⟨by simp, ?_, by simp, ha.resets⟩, _, rfl, by simp⟩
    · rw [eventsDone_of_requested hq, eventsDone_of_not_requested rfl, advance_phase, hp]; rfl
    · simpa [hp, writesLeft] using ha.writes
  | wentOn rest p hp he ht => exact .inl (ht ▸ .writeOk ha hq (List.mem_cons_of_mem _ hp) he)
  | toRestore rest hp hl he ht => exact .inl (ht ▸ .writeOk ha hq (by simp [hp]) he)
  | readErr _ _ _ _ ht | writeErr _ _ _ _ _ _ ht | committedAsleep _ _ _ _ _ _ _ _ ht
  | committedActive _ _ _ _ _ _ _ ht | channelDone _ _ _ ht => exact .inr (ht ▸ .of_endCommand _ rfl rfl)

/-- A step of a command in flight, its answers there, goes on or ends the command. -/
theorem Inv.step_goesOn_or_ends (h : Inv s) (hi : s.phase ≠ .idle) (ha : AnswersLeft s) :
    ∃ t, step s = .next t ∧ (GoesOn s t ∨ Ends s t) := by
  obtain ⟨t, ht⟩ := invariantStepsGoOn s h
  have hcount := countReset_of_no_resets s ha.resets
  refine ⟨t, ht, ?_⟩
  obtain ⟨hr, _⟩ | ⟨_, hp, _⟩ | ⟨_, _, hq, q, _, rfl⟩ | ⟨_, _, hq, hc⟩ := step_cases ht
  · simp [resetAsserted_of_no_resets s ha.resets] at hr
  · exact absurd hp hi
  · exact .inl (hcount.symm ▸ .issue q ha hi hq)
  · rw [hcount] at hc
    exact (completePhase_cases hc).goesOn_or_ends ha hq (ha.completePhase_requested hi hc)

end

/-- A command in flight ends within as many steps as it takes to come to twelve events. -/
theorem Inv.runSteps_ends (n : Nat) {s : State} (h : Inv s) (hi : s.phase ≠ .idle) (ha : AnswersLeft s)
    (hn : 12 ≤ eventsDone s + n) : ∃ k t, k ≤ n ∧ runSteps k s = .next t ∧ Ends s t := by
  induction n generalizing s with
  | zero => exact absurd (eventsDone_lt s) (Nat.not_lt.2 hn)
  | succ n ih =>
    obtain ⟨t, hstep, hgo | hend⟩ := h.step_goesOn_or_ends hi ha
    · have hn' : 12 ≤ eventsDone t + n := by
        have := hgo.eventsDone
        omega
      obtain ⟨k, u, hk, hrun, hu⟩ := ih (stepKeepsInvariant s t h hstep) hgo.inFlight hgo.answersLeft hn'
      exact ⟨k + 1, u, Nat.succ_le_succ hk, (runSteps_succ hstep).trans hrun, hgo.trans_ends hu⟩
    · exact ⟨1, t, Nat.succ_le_succ n.zero_le, runSteps_succ hstep, hend⟩

/-- Settles O54: from no event on it takes at most twelve steps to the response. -/
theorem commandInFlightEnds : Obligations.CommandInFlightEnds := by
  intro s h hi hready
  obtain ⟨n, t, hn, hrun, hend⟩ := h.runSteps_ends 12 hi hready.answersLeft (Nat.le_add_left 12 _)
  obtain ⟨evs, r, htr, hevs⟩ := hend.trace
  exact ⟨n, t, evs, r, hn, hrun, hend.idle, hend.quiet, htr, hevs⟩

end Sys2Proof.Machine

/-! PROOF. Hardware reset in any phase, and what stands before the prescale write. -/

namespace Sys2Proof.Machine

/-! ### Hardware reset (R160, R165) -/

theorem resetAsserted_of_due {s : State} {rest : List Nat} (h : s.env.resets = 0 :: rest) : resetAsserted s = true := by
  simp [resetAsserted, h]

/-- Settles O2: whatever the phase, the step is `hardwareReset`, which takes one entry off the reset schedule. -/
theorem hardwareResetInAnyPhase : Obligations.HardwareResetInAnyPhase := by
  intro s rest h
  have henv : (hardwareReset s).env = { s.env with resets := rest } := by rw [hardwareReset_env, h, List.tail_cons]
  exact ⟨hardwareReset s, step_reset (resetAsserted_of_due h), rfl, rfl, rfl, rfl, rfl, rfl, rfl, rfl, rfl, henv, rfl⟩

/-! ### Before the prescale write (R87, R172) -/

/-- A write to MODE1 is no write to PRESCALE (R35). -/
theorem mode1WriteRequest_ne_prescaleWrite {s : State} {v : Option Byte} {dev p : Byte} :
    writeRequest s (some regMode1) v ≠ some (.write dev regPrescale p) := by
  intro h
  obtain ⟨_, r, _, _, hreg, _, hq⟩ := writeRequest_eq_some h
  obtain rfl : regMode1 = r := Option.some.inj hreg
  exact absurd (Request.write.inj hq).2.1 (by decide)

/-- Only the prescale phase asks for a write to PRESCALE: the others of its command write MODE1, and the channel
registers end below PRESCALE (R12, R49). -/
theorem Inv.phase_of_prescaleWrite {s : State} {dev p : Byte} (h : Inv s)
    (hq : phaseRequest s = some (.write dev regPrescale p)) : s.phase = .spWritePrescale := by
  have hchannel : s.phase ∉ [Phase.scWriteOnL, .scWriteOnH, .scWriteOffL, .scWriteOffH] := by
    intro hp
    obtain ⟨_, n, k, _, hn, hk, hw⟩ := h.channelPhase_request hp hq
    exact channelReg_ne hn hk (by decide) (Request.write.inj hw).2.1.symm
  cases hp : s.phase <;> simp only [phaseRequest, hp] at hq
  case spWritePrescale => rfl
  case idle | spSettle => cases hq
  case spReadMode1 =>
    obtain ⟨_, _, hr⟩ := readRequest_eq_some hq
    cases hr
  case spWriteSleep | spWriteRestore | spWriteRestart => exact absurd hq mode1WriteRequest_ne_prescaleWrite
  all_goals exact absurd (by simp [hp]) hchannel

/-- Only a prescale command passes through the prescale phase. -/
theorem eq_setPrescale_of_usesPhase_prescale {i : Instr} (h : usesPhase i .spWritePrescale = true) :
    ∃ f r, i = .setPrescaleFromFrequency f r := by
  cases i <;> simp_all [usesPhase]

/-- The full trace as far as the prescale write ends with the sleep write and its `ok` (R96). -/
theorem commandTrace_take_prescale (a m0 : Byte) (us elapsed f : Nat) (r : Bool) :
    (commandTrace a us elapsed m0 (.setPrescaleFromFrequency f r)).take (eventsBefore .spWritePrescale) =
      (commandTrace a us elapsed m0 (.setPrescaleFromFrequency f r)).take (eventsBefore .spWriteSleep) ++
        writeEvents a regMode1 (sleepByte m0) := by
  cases r <;> rfl

section
variable {s : State} {before : List Event} {w : CommandWord} {i : Instr} {a : DevAddr} {m0 : Byte} {elapsed : Nat}

/-- A write the flight's phase asks for goes to the flight's own device (R37). -/
theorem Flight.device_of_write {dev reg v : Byte} (h : Flight s before w i a m0 elapsed)
    (hq : phaseRequest s = some (.write dev reg v)) : dev = devByte a := by
  obtain hq | ⟨a', ha, ⟨_, hq⟩ | ⟨_, _, hq⟩⟩ := phaseRequest_address hq
  · cases hq
  · cases hq
  · obtain rfl : a = a' := Option.some.inj (h.address.symm.trans ha)
    exact (Request.write.inj hq).1

/-- A flight that has not yet asked for the prescale write has just had its sleep write answered `ok`. -/
theorem Flight.before_prescale (h : Flight s before w i a m0 elapsed) (hp : s.phase = .spWritePrescale)
    (hr : s.requested = false) :
    ∃ earlier, s.trace = earlier ++ writeEvents (devByte a) regMode1 (sleepByte m0) := by
  obtain ⟨f, r, rfl⟩ := eq_setPrescale_of_usesPhase_prescale (hp ▸ h.uses)
  have htr := h.trace
  rw [hp, hr, if_neg Bool.false_ne_true, Nat.add_zero, commandTrace_take_prescale, ← List.append_assoc] at htr
  exact ⟨_, htr⟩

end

/-- `S` puts the chip to sleep: its sleep bit is set (R87). -/
theorem sleepByte_sleep_set (m0 : Byte) : (sleepByte m0).getLsbD 4 = true :=
  sleepByte_getLsbD m0 (by decide)

/-- Settles O47: the request is the prescale phase's, and what the flight has behind it there ends with the sleep write
and its `ok`. -/
theorem prescaleWriteFollowsSleepWrite : Obligations.PrescaleWriteFollowsSleepWrite := by
  intro s t dev p hinv hflight hstep htr
  have hq := phaseRequest_of_issued hstep htr (List.mem_singleton_self _)
  have hp := hinv.phase_of_prescaleWrite hq
  have hi := ne_idle_of_phaseRequest hq
  obtain ⟨before, w, i, a, m0, elapsed, hf⟩ := (flightTrace_iff s).1 hflight hi
  obtain ⟨earlier, htrace⟩ := hf.before_prescale hp (requested_eq_false_of_issued hi hstep htr)
  rw [hf.device_of_write hq]
  exact ⟨earlier, sleepByte m0, htrace, sleepByte_sleep_set m0⟩

end Sys2Proof.Machine
